-- ==== Sys2Proof/Config.lean ====
section
/-! DEFINITION. The constants of the block (spec/00_scope.md rule R5): the counts and figures that the source fixes, the
defaults of the decided widths and of `N_SW`, and the OPEN parameters that no rule reads. Every parameter that a model
takes as an argument, the decided ones too (`N_SW`, `ADC_W`, `ACC_W`, `IDX_W`, `QTABLE`, `PIN_MAP` and the others), is a field
of the record `Machine.Params`, which the state carries, so that a statement about every state holds for every value of
them; the defaults below are only the values of that record at `State.reset`. -/

namespace Sys2Proof

/-- The default of `ADC_W`, the width of a conversion result (R5, decision D7). -/
abbrev Config.adcW : Nat := 10
/-- The default of `ACC_W`, the width of `accumulatedValue` (R5, decision D6). -/
abbrev Config.accW : Nat := 32
/-- The default of `IDX_W`, the width of the button and menu index registers (R5, decisions D14, D26). -/
abbrev Config.idxW : Nat := 8
/-- The default of `N_SW`, the number of button indices (R5, decision D14). -/
abbrev Config.nSw : Nat := 18
/-- How many button indices the encodings can name: the index of `abc.calload` and the number of a pin's classification
have 5 bits (R61, R71), and the last pin of chip 1 would be switch 31 (R141). So `N_SW <= 32`. -/
abbrev Config.maxSw : Nat := 32
/-- `N_ENC`, the number of quadrature decoder instances (R5, source §3). -/
abbrev Config.nEnc : Nat := 4
/-- `N_CHIP`, the number of I/O-expander chips (R5, source §2). -/
abbrev Config.nChip : Nat := 2
/-- Each chip has 16 pins (R5, source §2). -/
abbrev Config.nPin : Nat := 16

/-- `STAB_EPS`, the stabilisation bound on `|smoothed - previous_smoothed|` (R5, source §4.2). -/
abbrev Config.stabEps : Nat := 3
/-- `ALPHA` = 1/10 (R5, R111): the weight of a conversion result is 1 part in `alphaDen`. -/
abbrev Config.alphaDen : Nat := 10
/-- `SETTLE_MS` = 100 ms (R5, R285): timing only, no rule's result depends on it. -/
abbrev Config.settleMs : Nat := 100

/-- `PX_ADDR[c]`, the bus address of chip `c` (R5, R47): OPEN, read by no rule. -/
opaque Config.pxAddr : Fin Config.nChip → Nat
/-- `IRQ_LINE[c]`, the digital input of chip `c`'s interrupt line (R5, R47): OPEN, read by no rule. -/
opaque Config.irqLine : Fin Config.nChip → Nat
/-- `F_CLK` (R5, R255): OPEN, read by no rule. -/
opaque Config.fClk : Nat

end Sys2Proof
end

