-- ==== Sys2Proof/Word.lean ====
section
/-! DEFINITION. The word types of the block: the 16-bit words of the command port, conversion results, the signed 8-bit
indices, and the bounded numbers that name an encoder, a chip, a pin and a switch. -/

namespace Sys2Proof

/-- A word of the ports `cmd`, `din`, `dout`, `evt_arg`, `trace` and `level[c]` (R60, R62). -/
abbrev Word := BitVec 16
/-- An unsigned `ADC_W`-bit conversion result as it stands on a port or in a register, right-aligned in 16 bits (R43, R62);
`ADC_W` is a parameter, and the bits from `ADC_W` up are 0 (`State.RegistersFit`). -/
abbrev Sample := BitVec 16
/-- A button or menu index: a signed 8-bit value (R69, R72), whatever width `IDX_W >= 8` its register has
(notes/assumptions/5.md). -/
abbrev Idx := BitVec 8
/-- A decoder instance: 0 = volume, 1 = filter, 2 = tune, 3 = fine-tune (R11). -/
abbrev EncId := Fin Config.nEnc
/-- An expander chip (R40). -/
abbrev Chip := Fin Config.nChip
/-- A pin of a chip; pin `p` is bit `p` of the chip's port word (R43). -/
abbrev Pin := Fin Config.nPin
/-- A number of a switch that the 5-bit fields can name (R61, R71); a button index is one below `N_SW` (R69). -/
abbrev Button := Fin Config.maxSw

/-- The sentinel `NONE` = -1 = `0xFF` of the button index type (R69). -/
abbrev Idx.NONE : Idx := 0xFF#8

end Sys2Proof
end

