-- ==== Sys2Proof/Machine/Symbols.lean ====
section
/-! DEFINITION. The symbol types of the block and their numeric codes (spec/30_encoding.md rules R64, R65, R67, R68, R70,
R71, R80; spec/10_state.md rule R10; spec/43_menu_fsm.md rule R182; spec/44_foreground_and_system.md rule R230). Reserved
codes (R76) have no symbol. -/

namespace Sys2Proof.Machine

/-- Decoder states (R64). -/
inductive DecState where
  | START | CW_BEGIN | CW_NEXT | CW_FINAL | CCW_BEGIN | CCW_NEXT | CCW_FINAL
  deriving DecidableEq, Repr

/-- The code of a decoder state is its position in the source's list (R64). -/
def DecState.code : DecState → Fin 7
  | .START => 0 | .CW_BEGIN => 1 | .CW_NEXT => 2 | .CW_FINAL => 3
  | .CCW_BEGIN => 4 | .CCW_NEXT => 5 | .CCW_FINAL => 6

/-- A transition-table entry: next state and the flags `DIR_CW`, `DIR_CCW` (R65). -/
structure QEntry where
  next : DecState
  dirCW : Bool
  dirCCW : Bool
  deriving DecidableEq, Repr

/-- The 6-bit form of an entry: `[2:0]` next state, `[3]` = 0, `[4]` `DIR_CW`, `[5]` `DIR_CCW` (R65). -/
def QEntry.bits (q : QEntry) : BitVec 6 :=
  BitVec.ofNat 6 (q.next.code.val + q.dirCW.toNat * 16 + q.dirCCW.toNat * 32)

/-- Direction result of `qdec.process` (R67); `NONE` is `noStep`. -/
inductive Direction where
  | noStep | CW | CCW
  deriving DecidableEq, Repr

/-- R67: `NONE` = 0, `CW` = 1, `CCW` = 2. -/
def Direction.code : Direction → BitVec 2
  | .noStep => 0 | .CW => 1 | .CCW => 2

/-- The menu states (R68). -/
inductive MenuStatus where
  | noMenusActive | primaryMenuActive | secondaryMenuActive
  deriving DecidableEq, Repr

/-- R68: encoded in source order. -/
def MenuStatus.code : MenuStatus → BitVec 2
  | .noMenusActive => 0 | .primaryMenuActive => 1 | .secondaryMenuActive => 2

/-- `abcState` (R10). -/
inductive AbcState where
  | ABC_IDLE | ABC_SAMPLING | ABC_SETTLING
  deriving DecidableEq, Repr

/-- The codes of `abcState` (R10). -/
def AbcState.code : AbcState → BitVec 2
  | .ABC_IDLE => 0 | .ABC_SAMPLING => 1 | .ABC_SETTLING => 2

/-- `isrState[c]` (R10). -/
inductive IsrState where
  | IDLE | FETCH | READ | PARTNER
  deriving DecidableEq, Repr

/-- The codes of `isrState` (R10). -/
def IsrState.code : IsrState → BitVec 2
  | .IDLE => 0 | .FETCH => 1 | .READ => 2 | .PARTNER => 3

/-- `fgPhase` (R230). -/
inductive FgPhase where
  | PH_BOOT | PH_TAKE | PH_ENC | PH_POLL | PH_SETTLE | PH_PRESS
  deriving DecidableEq, Repr

/-- The codes of `fgPhase` (R230). -/
def FgPhase.code : FgPhase → BitVec 3
  | .PH_BOOT => 0 | .PH_TAKE => 1 | .PH_ENC => 2 | .PH_POLL => 3 | .PH_SETTLE => 4 | .PH_PRESS => 5

/-- The strap `ACQ_MODE` (R70): `ANALOG` = 0, `EXPANDER` = 1. -/
inductive AcqMode where
  | ANALOG | EXPANDER
  deriving DecidableEq, Repr

/-- The strap `ENC_WIRING` (R70): `NORMAL` = 0, `SWAPPED` = 1. -/
inductive EncWiring where
  | NORMAL | SWAPPED
  deriving DecidableEq, Repr

/-- The strap `SD_FLOW` (R70): `ABSENT` = 0, `PRESENT` = 1. -/
inductive SdFlow where
  | ABSENT | PRESENT
  deriving DecidableEq, Repr

/-- The strap `SEQ_EN` (R70): 0 = the host drives the command port, 1 = the internal sequencer does. -/
inductive SeqEn where
  | host | sequencer
  deriving DecidableEq, Repr

/-- The strap codes (R70). -/
def AcqMode.code : AcqMode → BitVec 1
  | .ANALOG => 0 | .EXPANDER => 1

/-- The strap codes (R70). -/
def EncWiring.code : EncWiring → BitVec 1
  | .NORMAL => 0 | .SWAPPED => 1

/-- The strap codes (R70). -/
def SdFlow.code : SdFlow → BitVec 1
  | .ABSENT => 0 | .PRESENT => 1

/-- The strap codes (R70). -/
def SeqEn.code : SeqEn → BitVec 1
  | .host => 0 | .sequencer => 1

/-- What a pin of a chip is wired to (R71, R141). -/
inductive PinKind where
  | UNUSED
  | SWITCH (k : Button)
  | ENC_A (e : EncId)
  | ENC_B (e : EncId)
  deriving DecidableEq, Repr

/-- The code of a pin classification: a 2-bit kind and a 5-bit number (R71). The rule gives kind 0 (`UNUSED`) no number: it
is 0 here. DESIGN CHOICE, safe: no rule reads it (notes/assumptions/29.md). -/
def PinKind.code : PinKind → BitVec 2 × BitVec 5
  | .UNUSED => (0, 0)
  | .SWITCH k => (1, BitVec.ofNat 5 k.val)
  | .ENC_A e => (2, BitVec.ofNat 5 e.val)
  | .ENC_B e => (3, BitVec.ofNat 5 e.val)

/-- The eighteen actions of the action table (R182). -/
inductive Action where
  | SELECT | MENU_UP | BAND_UP | ZOOM | MENU_DOWN | BAND_DOWN | FILTER | DEMOD | MODE
  | NOISE_REDUCTION | NOTCH | NOISE_FLOOR | FINE_TUNE_INC | DECODER_TOGGLE | MAIN_TUNE_INC
  | RESET_TUNING | FREQ_ENTRY | MAP_FLOW
  deriving DecidableEq, Repr

/-- The action identifier (R182). -/
def Action.id : Action → BitVec 5
  | .SELECT => 0 | .MENU_UP => 1 | .BAND_UP => 2 | .ZOOM => 3 | .MENU_DOWN => 4 | .BAND_DOWN => 5
  | .FILTER => 6 | .DEMOD => 7 | .MODE => 8 | .NOISE_REDUCTION => 9 | .NOTCH => 10 | .NOISE_FLOOR => 11
  | .FINE_TUNE_INC => 12 | .DECODER_TOGGLE => 13 | .MAIN_TUNE_INC => 14 | .RESET_TUNING => 15
  | .FREQ_ENTRY => 16 | .MAP_FLOW => 17

/-- Output events (R80, R181). -/
inductive Event where
  | NOTICE_NO_MENU
  | SHOW_MENU (m : Idx) (st : MenuStatus)
  | CALL_MENUFN (m : Idx)
  | ACTION (a : BitVec 5)
  | ENC_EVENT (e : EncId) (d : Direction)
  | FLOW_OPEN
  | FLOW_KEY (k : Idx)
  | FLOW_CLOSE
  | INIT_FAIL (c : Chip)
  deriving DecidableEq, Repr

/-- The word on `evt[7:0]` (R80). -/
def Event.code : Event → BitVec 8
  | .NOTICE_NO_MENU => 0x01
  | .SHOW_MENU _ _ => 0x02
  | .CALL_MENUFN _ => 0x03
  | .ACTION _ => 0x04
  | .ENC_EVENT _ _ => 0x05
  | .FLOW_OPEN => 0x06
  | .FLOW_KEY _ => 0x07
  | .FLOW_CLOSE => 0x08
  | .INIT_FAIL _ => 0x09

/-- The argument on `evt_arg[15:0]` (R80); `none` for an event that has no argument. -/
def Event.arg : Event → Option Word
  | .NOTICE_NO_MENU => none
  | .SHOW_MENU m st => some (BitVec.ofNat 16 (m.toNat + st.code.toNat * 256))
  | .CALL_MENUFN m => some (m.setWidth 16)
  | .ACTION a => some (a.setWidth 16)
  | .ENC_EVENT e d => some (BitVec.ofNat 16 (e.val * 4 + d.code.toNat))
  | .FLOW_OPEN => none
  | .FLOW_KEY k => some (k.setWidth 16)
  | .FLOW_CLOSE => none
  | .INIT_FAIL c => some (BitVec.ofNat 16 c.val)

end Sys2Proof.Machine
end

