-- ==== Sys2Proof/Machine/Tables.lean ====
section
/-! DEFINITION. The parameters a model takes as arguments (spec/00_scope.md rule R5, spec/92_eei_decisions.md), their
constraints, and their defaults: the transition table of spec/40_quadrature_decoder.md rule R93, the pin map of
spec/42_port_expander.md rule R141, the action table of spec/43_menu_fsm.md rule R182. -/

namespace Sys2Proof.Machine

/-- The transition table, 7 states by 4 samples (R93). -/
abbrev QTable := Vector (Vector QEntry 4) 7
/-- The pin map of the two chips (R141). -/
abbrev PinMap := Vector (Vector PinKind Config.nPin) Config.nChip

/-- The parameters whose value the model takes as an argument (R5). No step writes them. -/
structure Params where
  /-- `N_SW`, number of button indices (D14) -/
  nSw : Nat
  /-- `ADC_W`, width of a conversion result (D7) -/
  adcW : Nat
  /-- `ACC_W`, width of `accumulatedValue` (D6) -/
  accW : Nat
  /-- `IDX_W`, width of the index registers (D14, D26). Every value such a register takes is a signed 8-bit field (R69, R72),
  a switch number or an entry of `[0, N_MAIN)`, so a register of any `IDX_W >= 8` bits holds the same integer and no rule's
  result depends on the width (notes/assumptions/5.md). -/
  idxW : Nat
  /-- `N_MAIN`, number of top-level menus: OPEN -/
  nMain : Nat
  /-- `SMOOTH_INIT` (D9) -/
  smoothInit : Sample
  /-- `ABC_REINIT` (D9) -/
  abcReinit : Bool
  /-- `FLOAT_SENTINEL` (D11) -/
  floatSentinel : Option Sample
  /-- `QTABLE` (D4) -/
  qtable : QTable
  /-- `ACTION_MAP` (D15): the entries below `N_SW`; no rule reads one from `N_SW` on -/
  actionMap : Vector Action Config.maxSw
  /-- `SELECT_INDEX` (D15) -/
  selectIndex : Button
  /-- `FLOW_TRIGGER_INDEX` (D15) -/
  flowTriggerIndex : Button
  /-- `PIN_MAP` (D16) -/
  pinMap : PinMap
  /-- `PRESSED_LEVEL` (D17) -/
  pressedLevel : Bool
  deriving DecidableEq, Repr

/-- The straps (R15, R70). -/
structure Straps where
  acqMode : AcqMode
  encWiring : EncWiring
  sdFlow : SdFlow
  seqEn : SeqEn
  deriving DecidableEq, Repr

/-- An entry without a flag. -/
def QEntry.to (q : DecState) : QEntry := { next := q, dirCW := false, dirCCW := false }
/-- The entry `START|DIR_CW` (R65). -/
def QEntry.startCW : QEntry := { next := .START, dirCW := true, dirCCW := false }
/-- The entry `START|DIR_CCW` (R65). -/
def QEntry.startCCW : QEntry := { next := .START, dirCW := false, dirCCW := true }

/-- `QTABLE[state][s]`, samples 00, 01, 10, 11 from left to right (R93). -/
def defaultQTable : QTable :=
  #v[#v[.to .START, .to .CW_BEGIN, .to .CCW_BEGIN, .to .START],
     #v[.to .START, .to .CW_BEGIN, .to .START, .to .CW_NEXT],
     #v[.to .START, .to .CW_BEGIN, .to .CW_FINAL, .to .CW_NEXT],
     #v[.startCW, .to .START, .to .CW_FINAL, .to .CW_NEXT],
     #v[.to .START, .to .START, .to .CCW_BEGIN, .to .CCW_NEXT],
     #v[.to .START, .to .CCW_FINAL, .to .CCW_BEGIN, .to .CCW_NEXT],
     #v[.startCCW, .to .CCW_FINAL, .to .START, .to .CCW_NEXT]]

/-- The default `ACTION_MAP`: the identity on the table of rule R182, indices 0 to 17; the entries from 18 on are never
read. -/
def defaultActionMap : Vector Action Config.maxSw :=
  #v[.SELECT, .MENU_UP, .BAND_UP, .ZOOM, .MENU_DOWN, .BAND_DOWN, .FILTER, .DEMOD, .MODE,
     .NOISE_REDUCTION, .NOTCH, .NOISE_FLOOR, .FINE_TUNE_INC, .DECODER_TOGGLE, .MAIN_TUNE_INC,
     .RESET_TUNING, .FREQ_ENTRY, .MAP_FLOW,
     .FREQ_ENTRY, .FREQ_ENTRY, .FREQ_ENTRY, .FREQ_ENTRY, .FREQ_ENTRY, .FREQ_ENTRY, .FREQ_ENTRY,
     .FREQ_ENTRY, .FREQ_ENTRY, .FREQ_ENTRY, .FREQ_ENTRY, .FREQ_ENTRY, .FREQ_ENTRY, .FREQ_ENTRY]

/-- The default `PIN_MAP` (R141). -/
def defaultPinMap : PinMap :=
  #v[#v[.SWITCH 0, .SWITCH 1, .SWITCH 2, .SWITCH 3, .SWITCH 4, .SWITCH 5, .SWITCH 6, .SWITCH 7,
        .SWITCH 8, .SWITCH 9, .SWITCH 10, .SWITCH 11, .SWITCH 12, .SWITCH 13, .SWITCH 14, .SWITCH 15],
     #v[.SWITCH 16, .SWITCH 17, .UNUSED, .UNUSED, .UNUSED, .UNUSED, .UNUSED, .UNUSED,
        .ENC_A 0, .ENC_B 0, .ENC_A 1, .ENC_B 1, .ENC_A 2, .ENC_B 2, .ENC_A 3, .ENC_B 3]]

/-- The defaults of rule R5. `nMain` is OPEN: 5 is the value of spec/95_test_vectors.md. DESIGN CHOICE, unsafe for a claim
about the one run from reset (notes/assumptions/4.md). -/
def defaultParams : Params where
  nSw := Config.nSw
  adcW := Config.adcW
  accW := Config.accW
  idxW := Config.idxW
  nMain := 5
  smoothInit := 1023
  abcReinit := false
  floatSentinel := none
  qtable := defaultQTable
  actionMap := defaultActionMap
  selectIndex := 0
  flowTriggerIndex := 17
  pinMap := defaultPinMap
  pressedLevel := false

/-- The sample `s = (pinB << 1) | pinA` (R66). -/
def sampleOf (pinA pinB : Bool) : Fin 4 :=
  match pinB, pinA with
  | false, false => 0
  | false, true => 1
  | true, false => 2
  | true, true => 3

/-- `MemRead(QTAB, (state, s), 6)` (R40, R94). -/
def QTable.entry (t : QTable) (q : DecState) (s : Fin 4) : QEntry := t[q.code][s]

/-- `PIN_MAP(c, p)` (R141). -/
def PinMap.kind (m : PinMap) (c : Chip) (p : Pin) : PinKind := m[c][p]

/-- The button indices `[0, N_SW)` in rising order (R69). -/
def buttons (nSw : Nat) : List Button := (List.finRange Config.maxSw).take nSw

/-- The sixteen pins of a chip in rising order. -/
def allPins : List Pin := List.finRange Config.nPin

/-- The partner of an encoder pin on the same chip: the `ENC_B(e)` pin of an `ENC_A(e)` pin and conversely (R141). -/
def PinMap.partner (m : PinMap) (c : Chip) (p : Pin) : Option Pin :=
  match m.kind c p with
  | .ENC_A e => allPins.find? fun q => m.kind c q == .ENC_B e
  | .ENC_B e => allPins.find? fun q => m.kind c q == .ENC_A e
  | _ => none

/-- The flags `(DIR_CW, DIR_CCW)` that a list of samples meets from state `q`, one pair a sample. -/
def QTable.flags (t : QTable) : DecState → List (Fin 4) → List (Bool × Bool)
  | _, [] => []
  | q, s :: rest => ((t.entry q s).dirCW, (t.entry q s).dirCCW) :: QTable.flags t (t.entry q s).next rest

/-- The samples of the full clockwise cycle after the rest sample 00 (R92 P4). -/
def cwCycle : List (Fin 4) := [1, 3, 2, 0]
/-- The samples of the full counter-clockwise cycle after the rest sample 00 (R92 P4). -/
def ccwCycle : List (Fin 4) := [2, 3, 1, 0]

/-- How far a cycle has come with sample `s`, `k` of its samples having come in their order. -/
def cycleStep (cycle : List (Fin 4)) (k : Nat) (s : Fin 4) : Nat := if cycle[k]? = some s then k + 1 else k

/-- From state `q`, with `k` samples of the clockwise and `k'` of the counter-clockwise cycle seen since the last count, the
list of samples meets a flag only where the cycle of that direction is complete. -/
def QTable.countsOnlyCycles (t : QTable) : DecState → Nat → Nat → List (Fin 4) → Bool
  | _, _, _, [] => true
  | q, k, k', s :: rest =>
    let x := t.entry q s
    let j := cycleStep cwCycle k s
    let j' := cycleStep ccwCycle k' s
    (!x.dirCW || j == 4) && (!x.dirCCW || j' == 4) &&
      (if x.dirCW || x.dirCCW then QTable.countsOnlyCycles t x.next 0 0 rest
       else QTable.countsOnlyCycles t x.next j j' rest)

/-- The properties that rule R92 asks of any table (P1 is its type). P3 and P5, "a full electrical cycle … must complete
before a step is counted", are read as rule R97 does for the default table: since the last count the samples of P4's
cycle have all come in their order. DEDUCED, safe (notes/assumptions/30.md). -/
structure QTable.Wf (t : QTable) : Prop where
  /-- P2: `DIR_CW` only out of `CW_FINAL` into `START`, `DIR_CCW` only out of `CCW_FINAL` into `START` -/
  flagged : ∀ s : Fin 4, ∀ q ∈ [DecState.START, .CW_BEGIN, .CW_NEXT, .CW_FINAL, .CCW_BEGIN, .CCW_NEXT, .CCW_FINAL],
    ((t.entry q s).dirCW = true → q = .CW_FINAL ∧ (t.entry q s).next = .START) ∧
    ((t.entry q s).dirCCW = true → q = .CCW_FINAL ∧ (t.entry q s).next = .START)
  /-- P3, P5: no count without the full cycle -/
  noEarlyCount : ∀ l : List (Fin 4), t.countsOnlyCycles .START 0 0 l = true
  /-- P4: `00,01,11,10,00` from `START` meets exactly one `DIR_CW` (and no `DIR_CCW`: P5) -/
  cwOnce : (t.flags .START (0 :: cwCycle)).count (true, false) = 1
  /-- P4: `00,10,11,01,00` from `START` meets exactly one `DIR_CCW` -/
  ccwOnce : (t.flags .START (0 :: ccwCycle)).count (false, true) = 1

/-- The pins that carry `k`. -/
def PinMap.pinsOf (m : PinMap) (k : PinKind) : List (Chip × Pin) :=
  (List.finRange Config.nChip).flatMap fun c => (allPins.filter fun p => m.kind c p == k).map fun p => (c, p)

/-- The constraints on `PIN_MAP` (R141): the switch numbers are below `N_SW` and follow the index formulas, and each encoder
has one `ENC_A` and one `ENC_B` pin, on one chip. -/
abbrev PinMap.Wf (m : PinMap) (nSw : Nat) : Prop :=
  (∀ c : Chip, ∀ p : Pin, ∀ k : Button, m.kind c p = .SWITCH k → k.val < nSw ∧ k.val = c.val * 16 + p.val) ∧
  (∀ e : EncId, (m.pinsOf (.ENC_A e)).length = 1 ∧ (m.pinsOf (.ENC_B e)).length = 1 ∧
    (m.pinsOf (.ENC_A e)).map Prod.fst = (m.pinsOf (.ENC_B e)).map Prod.fst)

/-- The constraints on the widths and counts (R5): `1 <= N_MAIN <= 127`; the index fields hold `N_SW` (R61, R71); a conversion
result fits the 16-bit ports (R62); an index register has room for the 8-bit fields (R69, R72), and `fgTmp`, of `ACC_W`
bits, for an index (R153). -/
abbrev Params.WidthsWf (p : Params) : Prop :=
  (1 ≤ p.nMain ∧ p.nMain ≤ 127) ∧ (1 ≤ p.nSw ∧ p.nSw ≤ Config.maxSw) ∧ (1 ≤ p.adcW ∧ p.adcW ≤ 16) ∧
  (8 ≤ p.idxW ∧ p.idxW ≤ p.accW)

/-- The constraints on the parameters: their widths, R92, R141, R182 (exactly one index maps to `SELECT`, exactly one to
`MAP_FLOW`), and `ADC_W`-bit values for `SMOOTH_INIT` and `FLOAT_SENTINEL` (R5, R116). -/
structure Params.Wf (p : Params) : Prop where
  widths : p.WidthsWf
  qtable : p.qtable.Wf
  pinMap : p.pinMap.Wf p.nSw
  select : p.selectIndex.val < p.nSw ∧ ∀ k : Button, k.val < p.nSw → (p.actionMap[k] = .SELECT ↔ k = p.selectIndex)
  flowTrigger : p.flowTriggerIndex.val < p.nSw ∧
    ∀ k : Button, k.val < p.nSw → (p.actionMap[k] = .MAP_FLOW ↔ k = p.flowTriggerIndex)
  samples : p.smoothInit.toNat < 2 ^ p.adcW ∧ ∀ v, p.floatSentinel = some v → v.toNat < 2 ^ p.adcW

end Sys2Proof.Machine
end

