-- ==== Sys2Proof/Machine/Registers.lean ====
section
/-! DEFINITION. The registers of spec/10_state.md rule R10, grouped by unit, with their reset values (R25, R270). -/

namespace Sys2Proof.Machine

/-- `enc[e]`: `EncoderState` (R10, R90). -/
structure EncState where
  decodeState : DecState
  /-- the signed `ACC_W`-bit counter: the integer it holds, `ACC_W` being a parameter (R96) -/
  acc : Int
  deriving DecidableEq, Repr

/-- The registers of the analog classifier (R10). -/
structure AbcRegs where
  smoothed : Sample
  smoothedPrev : Sample
  stable : Bool
  abcState : AbcState
  /-- `CAL[i]`, `i` below `N_SW`; no rule reaches an entry from `N_SW` on, which keeps its reset value -/
  cal : Vector Sample Config.maxSw
  /-- `calValid[i]`, as `CAL[i]` -/
  calValid : Vector Bool Config.maxSw
  /-- `WIGGLE_ROOM` -/
  wiggleRoom : Sample
  wrValid : Bool
  deriving DecidableEq, Repr

/-- The registers of one expander chip and its handler (R10). Bit `p` of `pend` is `pend[c][p]` (R43). -/
structure ChipRegs where
  pxConfigured : Bool
  pxInitFail : Bool
  pend : Word
  irqLatch : Bool
  isrState : IsrState
  curPin : Pin
  curLevel : Bool
  deriving DecidableEq, Repr

/-- The registers of the menu unit (R10, R21, R22). -/
structure MenuRegs where
  menuStatus : MenuStatus
  mainMenuIndex : Idx
  secondaryMenuIndex : Idx
  secondaryChoice : Idx
  flowActive : Bool
  deriving DecidableEq, Repr

/-- The registers of the system unit (R10). -/
structure SysRegs where
  irqEnable : Bool
  fgPhase : FgPhase
  fgButton : Idx
  /-- signed `ACC_W` bits, as `enc[e].acc` -/
  fgTmp : Int
  /-- bit 0 `F_CMD`, bit 1 `F_CAL`, bit 2 `F_CONTRACT` (R20) -/
  fault : BitVec 3
  deriving DecidableEq, Repr

/-- Where in an operation of several micro-steps the foreground stands, when `abcState` does not say it (R48, R52, R252:
"the foreground resumes at the micro-step it had reached"). The MODEL's own field (notes/assumptions/21.md). -/
inductive MicroStep where
  /-- no such operation is in progress -/
  | idle
  /-- `qdec.process e`, second micro-step (R95) -/
  | processClear (e : EncId)
  /-- `px.take`, second micro-step (R153) -/
  | takeClear
  /-- `abc.sample`, waiting for `adc_valid` (R62) -/
  | sampleWait
  /-- `menu.press` select, waiting for `ret_valid` (R80, R187) -/
  | menuWait
  deriving DecidableEq, Repr

/-- Progress of the foreground: MODEL's own fields (notes/assumptions/18.md, 21.md). -/
structure Progress where
  micro : MicroStep
  /-- how many operations of the sequencer's phase are complete (R231 to R233) -/
  seqPos : Nat
  /-- the `d` of rule R232 between `qdec.process` and its event -/
  seqDir : Direction
  deriving DecidableEq, Repr

/-- What the environment holds and presents to the block (R24, R54, R62). Not registers of the block. -/
structure EnvInputs where
  /-- `level[c][15:0]` -/
  level : Vector Word Config.nChip
  /-- conversion results supplied and not yet consumed, the next one first (R54, R79) -/
  adc : List Sample
  /-- `ack[c]` -/
  ack : Vector Bool Config.nChip
  /-- return values of menu functions supplied and not yet consumed -/
  ret : List Idx
  /-- the calibration store's answers to the sequencer's boot reads, entry `i` for `i` below `N_SW` -/
  calStore : Vector Sample Config.maxSw
  wiggleStore : Sample
  /-- commands the host presents, `(cmd, din)`, the one on the port first -/
  cmds : List (Word × Word)
  /-- the strap pins, sampled at reset (R15, R271) -/
  strapPins : Straps
  deriving DecidableEq, Repr

/-- What the block has put on its output ports, oldest first (R62, R80, R81). -/
structure OutLog where
  /-- `evt` / `evt_arg` -/
  events : List Event
  /-- `dout` with `rsp_valid` -/
  responses : List Word
  /-- `trace` -/
  trace : List Word
  deriving DecidableEq, Repr

/-- Reset values of a decoder (R10). -/
def EncState.reset : EncState := { decodeState := .START, acc := 0 }

/-- Reset values of the classifier (R10, R270). `CAL` and `WIGGLE_ROOM` are unspecified in the spec: 0 here. DESIGN CHOICE,
unsafe (notes/assumptions/1.md). -/
def AbcRegs.reset (smoothInit : Sample) : AbcRegs where
  smoothed := smoothInit
  smoothedPrev := smoothInit
  stable := false
  abcState := .ABC_IDLE
  cal := Vector.replicate Config.maxSw 0
  calValid := Vector.replicate Config.maxSw false
  wiggleRoom := 0
  wrValid := false

/-- Reset values of a chip's registers (R10, R270). `curPin`, `curLevel` are unspecified in the spec: 0 here. DESIGN
CHOICE, unsafe (notes/assumptions/1.md). -/
def ChipRegs.reset : ChipRegs where
  pxConfigured := false
  pxInitFail := false
  pend := 0
  irqLatch := false
  isrState := .IDLE
  curPin := 0
  curLevel := false

/-- Reset values of the menu registers (R10, R270). -/
def MenuRegs.reset : MenuRegs where
  menuStatus := .noMenusActive
  mainMenuIndex := 0
  secondaryMenuIndex := -1
  secondaryChoice := -1
  flowActive := false

/-- Reset values of the system registers (R10, R270). `fgTmp` is unspecified in the spec: 0 here. DESIGN CHOICE, unsafe
(notes/assumptions/1.md). -/
def SysRegs.reset : SysRegs where
  irqEnable := false
  fgPhase := .PH_BOOT
  fgButton := Idx.NONE
  fgTmp := 0
  fault := 0

/-- Nothing in progress: R270, "every operation in progress … is abandoned". -/
def Progress.reset : Progress := { micro := .idle, seqPos := 0, seqDir := .noStep }

/-- The straps at power-on. DESIGN CHOICE (notes/assumptions/3.md): host mode and the values of spec/95_test_vectors.md. -/
def defaultStraps : Straps where
  acqMode := .ANALOG
  encWiring := .NORMAL
  sdFlow := .PRESENT
  seqEn := .host

/-- The environment at power-on. The spec gives it no rule (R54); DESIGN CHOICE, unsafe (notes/assumptions/2.md): the start
of the vectors of spec/95_test_vectors.md, section 2.3 and program P6. -/
def EnvInputs.initial : EnvInputs where
  level := #v[0xFFFF#16, 0x00FF#16]
  adc := []
  ack := #v[true, true]
  ret := []
  calStore := #v[900, 850, 800, 750, 700, 650, 600, 550, 500, 450, 400, 350, 300, 250, 200, 150, 100, 50,
    0, 0, 0, 0, 0, 0, 0, 0, 0, 0, 0, 0, 0, 0]
  wiggleStore := 20
  cmds := []
  strapPins := defaultStraps

/-- Nothing has been output yet (R271). -/
def OutLog.initial : OutLog := { events := [], responses := [], trace := [] }

end Sys2Proof.Machine
end

