-- ==== Sys2Proof/Machine/State.lean ====
section
/-! DEFINITION. The state of the block: every register of spec/10_state.md rule R10, the environment's inputs, the output
ports, and the choices the spec leaves to others (which agent steps, which pending pin a chip reports), all as plain
data. Fault and Refusal. The state after reset. -/

namespace Sys2Proof.Machine

/-- A step of the environment (R54), with the strap pins and the `reset` input of R62. -/
inductive EnvStep where
  /-- `env.pin(c, p, v)` -/
  | pin (c : Chip) (p : Pin) (v : Bool)
  /-- `env.adc(v)`: the bits of `v` that the port `adc[ADC_W-1:0]` has (R62) -/
  | adc (v : Word)
  /-- `env.ack(c, a)` -/
  | ack (c : Chip) (a : Bool)
  /-- `env.menufn(r)` -/
  | menufn (r : Idx)
  /-- `env.cal(i, v)`: `ADC_W` bits of `v` -/
  | cal (i : Button) (v : Word)
  /-- `env.wiggle(v)`: `ADC_W` bits of `v` -/
  | wiggle (v : Word)
  /-- the host presents a command word with its data operand on the command port (R62) -/
  | command (cmd din : Word)
  /-- the strap pins change; the block samples them only at reset (R15, R271) -/
  | straps (v : Straps)
  /-- the `reset` input (R270) -/
  | reset
  deriving DecidableEq, Repr

/-- Which agent takes the next step (R48, R49); for a handler also the pin from which the chip looks for a pending pin
(R148, `PX_ORDER`). -/
inductive Turn where
  | fg
  | isr (c : Chip) (p : Pin)
  | env (e : EnvStep)
  deriving DecidableEq, Repr

structure State where
  /-- `enc[e]`, e = 0..3 -/
  enc : Vector EncState Config.nEnc
  abc : AbcRegs
  /-- `pendingButton` -/
  pendingButton : Idx
  /-- the registers of chip `c` -/
  chip : Vector ChipRegs Config.nChip
  menu : MenuRegs
  sys : SysRegs
  /-- the straps as sampled at reset (R15) -/
  straps : Straps
  /-- the parameters of rule R5; no step writes them -/
  params : Params
  /-- MODEL's own: progress of the foreground -/
  prog : Progress
  /-- the environment's side of the input ports -/
  env : EnvInputs
  /-- MODEL's own: what the output ports have shown -/
  out : OutLog
  /-- MODEL's own: for each chip, the pin from which it looks for a pending pin to report -/
  report : Vector Pin Config.nChip
  /-- MODEL's own: the agents' turns still to come -/
  turns : List Turn
  /-- MODEL's own: the turns that follow when `turns` has run out, over and over, so that an environment may go on changing
  pins for ever (R49 (a), R54, R156); when this is empty too, `State.nextTurn` says whose turn it is -/
  turnCycle : List Turn
  deriving DecidableEq, Repr

/-- Why the block stops. Neither can happen from reset with a pin map that meets R141 (`Safety.lean`). -/
inductive Fault where
  /-- Raised by the `PARTNER` micro-step of `px.isr` when `PIN_MAP` names no partner for the pin: the parameter breaks the
  constraint of R141. Safe: the machine stops. -/
  | noPartnerPin
  /-- Raised by the `PARTNER` micro-step of `px.isr` when `curPin[c]` is no encoder contact: no run reaches it, `READ` enters
  `PARTNER` only for a contact (R149). Safe: the machine stops. -/
  | notAnEncoderPin
  deriving DecidableEq, Repr

/-- Why an operation has no meaning. -/
inductive Refusal where
  /-- Raised only by an arm of `exec` without a meaning; there is none. Safe. -/
  | notModelled (mnemonic : String)
  deriving DecidableEq, Repr

/-- R270, for given parameters and environment: every register at its reset value, the straps sampled from their pins. -/
def State.atReset (p : Params) (e : EnvInputs) : State where
  enc := Vector.replicate Config.nEnc EncState.reset
  abc := AbcRegs.reset p.smoothInit
  pendingButton := Idx.NONE
  chip := Vector.replicate Config.nChip ChipRegs.reset
  menu := MenuRegs.reset
  sys := SysRegs.reset
  straps := e.strapPins
  params := p
  prog := Progress.reset
  env := e
  out := OutLog.initial
  report := Vector.replicate Config.nChip 0
  turns := []
  turnCycle := []

/-- The block right after reset (R25, R270, R271). -/
def State.reset : State := State.atReset defaultParams EnvInputs.initial

end Sys2Proof.Machine
end

