-- ==== Sys2Proof/Machine/Flags.lean ====
section
/-! DEFINITION. The flags of the block (spec/10_state.md rules R13, R20): the sticky fault bits, the stability flag, and
the derived outputs of rule R19. -/

namespace Sys2Proof.Machine

/-- `F_CMD`, bit 0 of `fault` (R20, R245). -/
def F_CMD : BitVec 3 := 0b001#3
/-- `F_CAL`, bit 1 of `fault` (R20, R246). -/
def F_CAL : BitVec 3 := 0b010#3
/-- `F_CONTRACT`, bit 2 of `fault` (R20, R247). -/
def F_CONTRACT : BitVec 3 := 0b100#3

/-- Set a sticky fault bit: nothing else changes (R20, R249). -/
def State.setFault (b : BitVec 3) (s : State) : State :=
  { s with sys := { s.sys with fault := s.sys.fault ||| b } }

/-- `stable <- 1 if |smoothed - smoothedPrev| <= 3 else 0` (R112). -/
def stableFlag (new prev : Sample) : Bool :=
  decide (((new.toNat : Int) - prev.toNat).natAbs ≤ Config.stabEps)

/-- `irq_n[c]`: low exactly when `pxConfigured[c] = 1` and `pend[c] != 0` (R19, R144). -/
def State.irqN (s : State) (c : Chip) : Bool :=
  !(s.chip[c].pxConfigured && s.chip[c].pend != 0)

/-- `activity[c]`: 1 exactly when `isrState[c] != IDLE` (R19, R157). -/
def State.activity (s : State) (c : Chip) : Bool := s.chip[c].isrState != .IDLE

end Sys2Proof.Machine
end

