-- ==== Sys2Proof/Machine/Operands.lean ====
section
/-! DEFINITION. Operands, results and the arithmetic of the block (spec/44_foreground_and_system.md rule R225): exact
integers, narrowed only where a rule says so. -/

namespace Sys2Proof.Machine

/-- The largest magnitude an accumulator of `accW` bits takes, `2^(ACC_W-1) - 1` (R96). -/
def accMax (accW : Nat) : Int := 2 ^ (accW - 1) - 1

/-- `sat_ACC_W(v)`: symmetric saturation (spec/00_scope.md section 5, R96). -/
def satAcc (accW : Nat) (v : Int) : Int := min (max v (-accMax accW)) (accMax accW)

/-- The code `CW` if positive, `CCW` if negative, `NONE` if zero (R95). -/
def signDirection (v : Int) : Direction :=
  if 0 < v then .CW else if v < 0 then .CCW else .noStep

/-- `(raw + 9 * smoothed_prev) div 10` (R111): at most the larger operand, so it fits every `ADC_W` that they fit. -/
def smoothStep (raw prev : Sample) : Sample :=
  BitVec.ofNat 16 ((raw.toNat + (Config.alphaDen - 1) * prev.toNat) / Config.alphaDen)

/-- `|a - b|` on exact integers (R225 (c)). -/
def absDiff (a b : Sample) : Nat := ((a.toNat : Int) - b.toNat).natAbs

/-- `v[ADC_W-1:0]`, zero-extended (R62, R72): what an `ADC_W`-bit port carries of a word. -/
def lowBits (adcW : Nat) (v : Word) : Sample := BitVec.ofNat 16 (v.toNat % 2 ^ adcW)

/-- A button index on `dout`, sign-extended (R69). -/
def idxWord (v : Idx) : Word := v.signExtend 16
/-- A direction on `dout[1:0]` (R67). -/
def directionWord (d : Direction) : Word := d.code.setWidth 16

/-- A switch number as a button index. -/
def buttonIdx (k : Button) : Idx := BitVec.ofNat 8 k.val

/-- An index held in `fgTmp`: the integer it is (R10, R153). -/
def tmpOfIdx (v : Idx) : Int := v.toInt
/-- The index that `fgTmp` holds (R153). -/
def idxOfTmp (v : Int) : Idx := BitVec.ofInt 8 v

/-- Bit `p` of a port word (R43). -/
def pinBit (p : Pin) : Word := BitVec.ofNat 16 (2 ^ p.val)
/-- The port word with bit `p` set. -/
def setPin (w : Word) (p : Pin) : Word := w ||| pinBit p
/-- The port word with bit `p` clear. -/
def clearPin (w : Word) (p : Pin) : Word := w &&& ~~~ pinBit p
/-- The port word with bit `p` equal to `v`. -/
def writePin (w : Word) (p : Pin) (v : Bool) : Word := if v then setPin w p else clearPin w p
/-- Bit `p` of a port word. -/
def readPin (w : Word) (p : Pin) : Bool := w.getLsbD p.val

/-- The pins in the order a chip looks through them, from `start` upward and around (R148, `PX_ORDER`). -/
def scanOrder (start : Pin) : List Pin := allPins.map (start + ·)

/-- `choose p in { p | pend[c][p] = 1 }` (R148): the first pending pin from `start` on. Every pending pin is the answer for
some `start`; `start = 0` is the simulation default, the lowest pin first. -/
def reportedPin (pend : Word) (start : Pin) : Option Pin := (scanOrder start).find? fun p => readPin pend p

end Sys2Proof.Machine
end

