-- ==== Sys2Proof/Machine/Ops.lean ====
section
/-! DEFINITION. The named operations over the state: register and port access, the rules of who may step
(spec/20_memory.md rule R49), the change detector (spec/42_port_expander.md rule R143), and the entry to a handler and the
return from it (spec/60_exceptions.md rules R252, R253), which are this block's taking of an interrupt. -/

namespace Sys2Proof.Machine

/-- Write `enc[e]`. -/
def State.setEnc (e : EncId) (v : EncState) (s : State) : State := { s with enc := s.enc.set e v }
/-- Write the registers of chip `c`. -/
def State.setChip (c : Chip) (v : ChipRegs) (s : State) : State := { s with chip := s.chip.set c v }
/-- Write the classifier's registers. -/
def State.setAbc (v : AbcRegs) (s : State) : State := { s with abc := v }
/-- Write the menu registers. -/
def State.setMenu (v : MenuRegs) (s : State) : State := { s with menu := v }
/-- Write the system registers. -/
def State.setSys (v : SysRegs) (s : State) : State := { s with sys := v }
/-- Write `pendingButton`. -/
def State.setPending (v : Idx) (s : State) : State := { s with pendingButton := v }
/-- Write the progress of the foreground. -/
def State.setProg (v : Progress) (s : State) : State := { s with prog := v }
/-- Mark which micro-step the foreground has reached. -/
def State.setMicro (m : MicroStep) (s : State) : State := s.setProg { s.prog with micro := m }
/-- Write the environment's side of the ports. -/
def State.setEnv (v : EnvInputs) (s : State) : State := { s with env := v }
/-- Choose from which pin chip `c` looks for a pending pin (R148). -/
def State.setReport (c : Chip) (p : Pin) (s : State) : State := { s with report := s.report.set c p }
/-- The turns to come: those listed, and when they have run out the round that repeats, from its start. -/
def State.comingTurns (s : State) : List Turn :=
  match s.turns with
  | [] => s.turnCycle
  | t :: ts => t :: ts
/-- The next agent's turn is taken. -/
def State.popTurn (s : State) : State := { s with turns := s.comingTurns.tail }

/-- `emit`: one word on `evt` with its argument, after those before it (R80, R181). -/
def State.emit (x : Event) (s : State) : State := { s with out := { s.out with events := s.out.events ++ [x] } }
/-- `return v`: the operation's result on `dout` with `rsp_valid` (R62). -/
def State.respond (v : Word) (s : State) : State := { s with out := { s.out with responses := s.out.responses ++ [v] } }
/-- The command word of a started operation on `trace` (R81). -/
def State.pushTrace (w : Word) (s : State) : State := { s with out := { s.out with trace := s.out.trace ++ [w] } }

/-- Both handlers are idle: the foreground may step (R49 (c)). -/
def State.fgMayStep (s : State) : Bool := (List.finRange Config.nChip).all fun c => s.chip[c].isrState == .IDLE

/-- An operation of the foreground is in progress: `abcState` of a poll or a settle, or a micro-step still to come. -/
def State.busy (s : State) : Bool := s.abc.abcState != .ABC_IDLE || s.prog.micro != .idle

/-- `cmd_ready` (R62). -/
def State.cmdReady (s : State) : Bool := s.fgMayStep && !s.busy

/-- `ISR[c]` may take its entry step: the four conditions of R49 (b) and R147, and `ACQ_MODE` is not `ANALOG`, in which "no
handler runs" (R23, R101). That this keeps a handler from being entered and leaves `px.init` and `sei` of a host in that
mode their effects is read from the spec: DEDUCED, unsafe (notes/assumptions/28.md). -/
def State.handlerEnabled (s : State) (c : Chip) : Bool :=
  s.straps.acqMode == .EXPANDER && s.chip[c].isrState == .IDLE && s.chip[c].irqLatch && s.chip[c].pxConfigured && s.sys.irqEnable

/-- `ISR[c]` has been entered and has not returned (R49 (b)). -/
def State.handlerRunning (s : State) (c : Chip) : Bool := s.chip[c].isrState != .IDLE

/-- Handler entry: saves nothing, changes `irqLatch[c]` and `isrState[c]` and nothing else (R147, R252). -/
def State.enterHandler (c : Chip) (s : State) : State :=
  s.setChip c { s.chip[c] with irqLatch := false, isrState := .FETCH }

/-- Handler return: nothing is restored (R253). `curPin[c]` and `curLevel[c]` keep what they last held, which R18 leaves
unspecified: DESIGN CHOICE, unsafe (notes/assumptions/31.md). -/
def State.returnHandler (c : Chip) (s : State) : State :=
  s.setChip c { s.chip[c] with isrState := .IDLE }

/-- `MemRead(PIN, (c, p), 1)`: the live level, no side effect (R41). -/
def State.pinLevel (s : State) (c : Chip) (p : Pin) : Bool := readPin s.env.level[c] p

/-- The change detector: a change of a pin of a configured chip sets its `pend` bit, and the latch when the line falls
(R143, R144). -/
def ChipRegs.detectChange (r : ChipRegs) (p : Pin) : ChipRegs :=
  if r.pxConfigured then
    { r with pend := setPin r.pend p, irqLatch := r.irqLatch || r.pend == 0 }
  else r

/-- A reserved command word: `F_CMD`, nothing else (R75, R245). -/
def State.reservedWord (s : State) : State := s.setFault F_CMD

/-- An operation outside its contract is refused: `F_CONTRACT`, nothing else (R183, R247). -/
def State.outOfContract (s : State) : State := s.setFault F_CONTRACT

/-- `AdcRead()` takes the next conversion result (R54). -/
def State.dropAdc (s : State) : State := s.setEnv { s.env with adc := s.env.adc.tail }

/-- A call of `MENUFN` takes the next return value (R54). -/
def State.dropRet (s : State) : State := s.setEnv { s.env with ret := s.env.ret.tail }

end Sys2Proof.Machine
end

