-- ==== Sys2Proof/Syntax.lean ====
section
/-! DEFINITION. The operations of the block, one constructor per row of spec/opcode_table.json (spec/30_encoding.md rule
R73). Operands carry the type their field has (R72); the data operand `v` of format `D` is the word on `din[15:0]`
as it stands on the port, and `WellFormed` says when it is one. -/

namespace Sys2Proof

/-- An operation of rule R73. `menuPress0` to `menuPress17` are the eighteen rows `menu.press k`. -/
inductive Instr where
  /-- `cli` (R220) -/
  | cli
  /-- `sei` (R221) -/
  | sei
  /-- `qdec.update e, pinA, pinB` (R94) -/
  | qdecUpdate (e : EncId) (pinA pinB : Bool)
  /-- `qdec.process e` (R95) -/
  | qdecProcess (e : EncId)
  /-- `abc.poll` (R113) -/
  | abcPoll
  /-- `abc.sample` (R112) -/
  | abcSample
  /-- `abc.classify v` (R114) -/
  | abcClassify (v : Word)
  /-- `abc.settle` (R117) -/
  | abcSettle
  /-- `abc.calload i, v` (R119) -/
  | abcCalload (i : BitVec 5) (v : Word)
  /-- `abc.wrload v` (R120) -/
  | abcWrload (v : Word)
  /-- `px.init c` (R142) -/
  | pxInit (c : Chip)
  /-- `px.isr c` (R147 to R151), started by hardware only (R74) -/
  | pxIsr (c : Chip)
  /-- `px.take` (R153) -/
  | pxTake
  /-- `menu.press 0`, select with the default `ACTION_MAP` (R184, R187, R188) -/
  | menuPress0
  /-- `menu.press 1`, menu up (R189) -/
  | menuPress1
  /-- `menu.press 2`, band up (R191) -/
  | menuPress2
  /-- `menu.press 3`, zoom (R193) -/
  | menuPress3
  /-- `menu.press 4`, menu down (R190) -/
  | menuPress4
  /-- `menu.press 5`, band down (R192) -/
  | menuPress5
  /-- `menu.press 6`, filter (R194) -/
  | menuPress6
  /-- `menu.press 7`, demodulation mode (R195) -/
  | menuPress7
  /-- `menu.press 8`, transmit/receive mode (R196) -/
  | menuPress8
  /-- `menu.press 9`, noise reduction (R197) -/
  | menuPress9
  /-- `menu.press 10`, notch filter (R198) -/
  | menuPress10
  /-- `menu.press 11`, noise floor (R199) -/
  | menuPress11
  /-- `menu.press 12`, fine-tune increment (R200) -/
  | menuPress12
  /-- `menu.press 13`, decoder toggle (R201) -/
  | menuPress13
  /-- `menu.press 14`, main-tune increment (R202) -/
  | menuPress14
  /-- `menu.press 15`, tuning reset (R203) -/
  | menuPress15
  /-- `menu.press 16`, frequency direct entry (R204) -/
  | menuPress16
  /-- `menu.press 17`, extended map flow (R205) -/
  | menuPress17
  /-- `menu.flowkey k` (R206) -/
  | menuFlowkey (k : Idx)
  deriving DecidableEq, Repr

end Sys2Proof
end

