-- ==== Sys2Proof/WellFormed.lean ====
section
/-! DEFINITION. Which terms of `Instr` are instructions (spec/30_encoding.md rules R61, R72). Every operand but the data
operand has exactly the values its field has; the data operand of format `D` must have `din[15:ADC_W]` zero, for the
`ADC_W` that stands here as an argument (R5). -/

namespace Sys2Proof

/-- R72: "A `D` operand is `zext(din[ADC_W-1:0])` and `din[15:ADC_W]` must be 0". -/
abbrev DinFits (adcW : Nat) (v : Word) : Prop := v.toNat < 2 ^ adcW

/-- The well-formed instructions of a block with conversion results of `adcW` bits. -/
def WellFormed (adcW : Nat) : Instr → Bool
  | .abcClassify v => decide (DinFits adcW v)
  | .abcCalload _ v => decide (DinFits adcW v)
  | .abcWrload v => decide (DinFits adcW v)
  | .cli | .sei | .qdecUpdate _ _ _ | .qdecProcess _ | .abcPoll | .abcSample | .abcSettle => true
  | .pxInit _ | .pxIsr _ | .pxTake => true
  | .menuPress0 | .menuPress1 | .menuPress2 | .menuPress3 | .menuPress4 | .menuPress5 => true
  | .menuPress6 | .menuPress7 | .menuPress8 | .menuPress9 | .menuPress10 | .menuPress11 => true
  | .menuPress12 | .menuPress13 | .menuPress14 | .menuPress15 | .menuPress16 | .menuPress17 => true
  | .menuFlowkey _ => true

end Sys2Proof
end

