-- ==== Sys2Proof/Machine/Analog.lean ====
section
/-! DEFINITION. The analog button classifier (spec/41_analog_classifier.md rules R111 to R120). -/

namespace Sys2Proof.Machine

/-- What `Classify` finds, in the order of its pseudocode (R114, R251). -/
inductive Verdict where
  /-- calibration not loaded: `F_CAL` (R118) -/
  | uncalibrated
  /-- above the idle threshold: `NoInput` (R241) -/
  | noInput
  | hit (i : Button)
  /-- no window matches: `Unmapped` (R242) -/
  | unmapped
  deriving DecidableEq, Repr

/-- The tolerance and every calibration entry have been loaded (R118). -/
def AbcRegs.calibrated (a : AbcRegs) (nSw : Nat) : Bool := a.wrValid && (buttons nSw).all fun i => a.calValid[i]

/-- `|v - CAL[i]| < WIGGLE_ROOM` (R114). -/
def AbcRegs.inWindow (a : AbcRegs) (v : Sample) (i : Button) : Bool :=
  decide (absDiff v a.cal[i] < a.wiggleRoom.toNat)

/-- `Classify(v)` (R114), the scan in rising order of the indices `[0, N_SW)`. -/
def AbcRegs.classify (a : AbcRegs) (nSw : Nat) (v : Sample) : Verdict :=
  if a.calibrated nSw then
    if a.cal[0].toNat + a.wiggleRoom.toNat < v.toNat then .noInput
    else match (buttons nSw).find? (a.inWindow v) with
      | some i => .hit i
      | none => .unmapped
  else .uncalibrated

/-- The button index that a verdict returns: `NONE` but for a match (R114, R240). -/
def Verdict.idx : Verdict → Idx
  | .hit i => buttonIdx i
  | _ => Idx.NONE

/-- Classify `v` and return the button index (R114), with `F_CAL` when the table is not loaded (R118). -/
def State.classifyRespond (v : Sample) (s : State) : State :=
  match s.abc.classify s.params.nSw v with
  | .uncalibrated => (s.setFault F_CAL).respond (idxWord Idx.NONE)
  | r => s.respond (idxWord r.idx)

/-- One smoothing step on the filter registers (R111, R112). -/
def AbcRegs.filter (a : AbcRegs) (raw : Sample) : AbcRegs :=
  { a with
    smoothedPrev := a.smoothed
    smoothed := smoothStep raw a.smoothed
    stable := stableFlag (smoothStep raw a.smoothed) a.smoothed }

/-- `abc.sample` when a conversion result is there; it waits for `adc_valid` when there is none (R112, R62). -/
def State.sampleOnce (s : State) : State :=
  match s.env.adc with
  | [] => s.setMicro .sampleWait
  | raw :: _ =>
    (((s.dropAdc).setAbc (s.abc.filter raw)).respond (smoothStep raw s.abc.smoothed)).setMicro .idle

/-- One pass of the loop of `abc.poll`, a micro-step (R113, R116): the sentinel test, the smoothing step and, when the
estimate is stable, the classification. With no conversion result there it waits for `adc_valid` (R62). -/
def State.pollPass (s : State) : State :=
  match s.env.adc with
  | [] => s
  | raw :: _ =>
    if s.params.floatSentinel = some raw then
      ((s.dropAdc).setAbc { s.abc with abcState := .ABC_IDLE }).respond (idxWord Idx.NONE)
    else
      let a := s.abc.filter raw
      if a.stable then
        ((s.dropAdc).setAbc { a with abcState := .ABC_IDLE }).classifyRespond a.smoothed
      else (s.dropAdc).setAbc a

/-- `abc.poll` (R113): the loop begins with its first pass; `pollPass` takes the others. -/
def execAbcPoll (s : State) : Host.Outcome State Fault Refusal :=
  .next (s.setAbc { s.abc with
    abcState := .ABC_SAMPLING
    smoothed := if s.params.abcReinit then s.params.smoothInit else s.abc.smoothed }).pollPass

/-- `abc.sample` (R112). -/
def execAbcSample (s : State) : Host.Outcome State Fault Refusal := .next s.sampleOnce

/-- `abc.classify v` (R114). A data operand that is none is a reserved word (R72, R75). -/
def execAbcClassify (v : Word) (s : State) : Host.Outcome State Fault Refusal :=
  if DinFits s.params.adcW v then .next (s.classifyRespond v) else .next s.reservedWord

/-- `abc.settle`, first micro-step (R117). -/
def execAbcSettle (s : State) : Host.Outcome State Fault Refusal :=
  .next (s.setAbc { s.abc with abcState := .ABC_SETTLING })

/-- `abc.settle`, second micro-step, after `SETTLE_MS` (R117); how long it took is timing only (R285). -/
def State.settleFinish (s : State) : State := s.setAbc { s.abc with abcState := .ABC_IDLE }

/-- `MemWrite(CAL, i, ADC_W, v); calValid[i] <- 1` (R119). -/
def AbcRegs.loadCal (a : AbcRegs) (i : Button) (v : Sample) : AbcRegs :=
  { a with cal := a.cal.set i v, calValid := a.calValid.set i true }

/-- `abc.calload i, v` (R119); `i >= N_SW` is out of contract. -/
def execAbcCalload (i : BitVec 5) (v : Word) (s : State) : Host.Outcome State Fault Refusal :=
  if DinFits s.params.adcW v then
    if i.toNat < s.params.nSw then .next (s.setAbc (s.abc.loadCal i.toFin v))
    else .next s.outOfContract
  else .next s.reservedWord

/-- `abc.wrload v` (R120). -/
def execAbcWrload (v : Word) (s : State) : Host.Outcome State Fault Refusal :=
  if DinFits s.params.adcW v then .next (s.setAbc { s.abc with wiggleRoom := v, wrValid := true })
  else .next s.reservedWord

end Sys2Proof.Machine
end

