-- ==== Sys2Proof/Machine/Quadrature.lean ====
section
/-! DEFINITION. The quadrature decoder (spec/40_quadrature_decoder.md rules R94 to R96). -/

namespace Sys2Proof.Machine

/-- One update of a decoder: a table lookup, then at most one saturating count (R91, R94, R96). -/
def EncState.update (t : QTable) (accW : Nat) (x : EncState) (pinA pinB : Bool) : EncState :=
  let q := t.entry x.decodeState (sampleOf pinA pinB)
  let up := if q.dirCW then satAcc accW (x.acc + 1) else x.acc
  let down := if q.dirCCW then satAcc accW (up - 1) else up
  { decodeState := q.next, acc := down }

/-- `qdec.update` on the state: instance `e` and no other register (R94). -/
def State.updateEnc (e : EncId) (pinA pinB : Bool) (s : State) : State :=
  s.setEnc e (s.enc[e].update s.params.qtable s.params.accW pinA pinB)

/-- `enc[e].acc <- 0` (R95). -/
def State.clearAcc (e : EncId) (s : State) : State := s.setEnc e { s.enc[e] with acc := 0 }

/-- `qdec.update e, pinA, pinB` (R94). -/
def execQdecUpdate (e : EncId) (pinA pinB : Bool) (s : State) : Host.Outcome State Fault Refusal :=
  .next (s.updateEnc e pinA pinB)

/-- `qdec.process e` (R95, R52): atomic with interrupts masked, else the first of two micro-steps. -/
def execQdecProcess (e : EncId) (s : State) : Host.Outcome State Fault Refusal :=
  if s.sys.irqEnable then
    .next ((s.setSys { s.sys with fgTmp := s.enc[e].acc }).setMicro (.processClear e))
  else
    .next ((s.clearAcc e).respond (directionWord (signDirection s.enc[e].acc)))

/-- The second micro-step of `qdec.process e`: `enc[e].acc <- 0; return sign code of fgTmp` (R95).
`fgTmp` keeps its value, which R18 then leaves unspecified: DESIGN CHOICE, unsafe (notes/assumptions/31.md). -/
def State.processFinish (e : EncId) (s : State) : State :=
  ((s.clearAcc e).respond (directionWord (signDirection s.sys.fgTmp))).setMicro .idle

end Sys2Proof.Machine
end

