-- ==== Sys2Proof/Machine/Expander.lean ====
section
/-! DEFINITION. The port-expander event source (spec/42_port_expander.md rules R142 to R153): initialisation, the handler
state machine, the read-and-clear of `pendingButton`. -/

namespace Sys2Proof.Machine

/-- `px.init c` (R142, R244). -/
def execPxInit (c : Chip) (s : State) : Host.Outcome State Fault Refusal :=
  if s.env.ack[c] then
    .next (s.setChip c { s.chip[c] with pxConfigured := true, pend := 0, irqLatch := false })
  else
    .next ((s.setChip c { s.chip[c] with pxConfigured := false, pxInitFail := true }).emit (.INIT_FAIL c))

/-- Micro-step `FETCH` (R148): fetch one pending pin and clear its bit, or return when none is pending. -/
def State.isrFetch (c : Chip) (s : State) : State :=
  match reportedPin s.chip[c].pend s.report[c] with
  | none => s.returnHandler c
  | some p => s.setChip c { s.chip[c] with
      pend := clearPin s.chip[c].pend p, curPin := p, isrState := .READ }

/-- Micro-step `READ` (R149, R150): the live level of the fetched pin, routed by the pin map. Where the pin is served with
that, `curPin[c]` keeps its value, which R18 then leaves unspecified: DESIGN CHOICE, unsafe (notes/assumptions/31.md). -/
def State.isrRead (c : Chip) (s : State) : State :=
  let p := s.chip[c].curPin
  let lv := s.pinLevel c p
  match s.params.pinMap.kind c p with
  | .SWITCH k =>
    (if lv = s.params.pressedLevel then s.setPending (buttonIdx k) else s).setChip c
      { s.chip[c] with isrState := .FETCH }
  | .ENC_A _ => s.setChip c { s.chip[c] with curLevel := lv, isrState := .PARTNER }
  | .ENC_B _ => s.setChip c { s.chip[c] with curLevel := lv, isrState := .PARTNER }
  | .UNUSED => s.setChip c { s.chip[c] with isrState := .FETCH }

/-- The pair fed to the decoder, from the levels of contacts A and B, by the wiring convention (R151). -/
def wiredPair (w : EncWiring) (la lb : Bool) : Bool × Bool :=
  match w with
  | .NORMAL => (la, lb)
  | .SWAPPED => (lb, la)

/-- The end of `PARTNER`: feed the decoder the pair of levels, then `isrState[c] <- FETCH` (R151). `curPin[c]` and
`curLevel[c]` keep their values, which R18 then leaves unspecified: DESIGN CHOICE, unsafe (notes/assumptions/31.md). -/
def State.feedDecoder (c : Chip) (e : EncId) (la lb : Bool) (s : State) : State :=
  let ab := wiredPair s.straps.encWiring la lb
  (s.updateEnc e ab.1 ab.2).setChip c { s.chip[c] with isrState := .FETCH }

/-- Micro-step `PARTNER` (R151): own level from `curLevel[c]`, the partner's level live. -/
def State.isrPartner (c : Chip) (s : State) : Host.Outcome State Fault Refusal :=
  let p := s.chip[c].curPin
  match s.params.pinMap.kind c p, s.params.pinMap.partner c p with
  | .ENC_A e, some q => .next (s.feedDecoder c e s.chip[c].curLevel (s.pinLevel c q))
  | .ENC_B e, some q => .next (s.feedDecoder c e (s.pinLevel c q) s.chip[c].curLevel)
  | .ENC_A _, none => .fault .noPartnerPin
  | .ENC_B _, none => .fault .noPartnerPin
  | .SWITCH _, _ => .fault .notAnEncoderPin
  | .UNUSED, _ => .fault .notAnEncoderPin

/-- `px.isr c`: the next micro-step of handler `c`. The entry is taken only when it is enabled (R147, R49 (b)); while it is
not, there is no step to take and nothing changes (notes/assumptions/12.md). -/
def execPxIsr (c : Chip) (s : State) : Host.Outcome State Fault Refusal :=
  match s.chip[c].isrState with
  | .IDLE => .next (if s.handlerEnabled c then s.enterHandler c else s)
  | .FETCH => .next (s.isrFetch c)
  | .READ => .next (s.isrRead c)
  | .PARTNER => s.isrPartner c

/-- `px.take` (R153, R52): atomic with interrupts masked, else the first of two micro-steps. -/
def execPxTake (s : State) : Host.Outcome State Fault Refusal :=
  if s.sys.irqEnable then
    .next ((s.setSys { s.sys with fgTmp := tmpOfIdx s.pendingButton }).setMicro .takeClear)
  else
    .next ((s.setPending Idx.NONE).respond (idxWord s.pendingButton))

/-- The second micro-step of `px.take`: `pendingButton <- NONE; return fgTmp` (R153). `fgTmp` keeps its value, which R18 then
leaves unspecified: DESIGN CHOICE, unsafe (notes/assumptions/31.md). -/
def State.takeFinish (s : State) : State :=
  ((s.setPending Idx.NONE).respond (idxWord (idxOfTmp s.sys.fgTmp))).setMicro .idle

end Sys2Proof.Machine
end

