-- ==== Sys2Proof/Machine/Menu.lean ====
section
/-! DEFINITION. Button dispatch and the menu state machine (spec/43_menu_fsm.md rules R183 to R206). -/

namespace Sys2Proof.Machine

/-- `SHOW_MENU(mainMenuIndex, menuStatus)` with the registers as they now stand (R181). -/
def State.showMenu (s : State) : State := s.emit (.SHOW_MENU s.menu.mainMenuIndex s.menu.menuStatus)

/-- Select with no menu active: the notice, both indices 0, no dispatch (R184, R248). -/
def State.selectNoMenu (s : State) : State :=
  (s.emit .NOTICE_NO_MENU).setMenu
    { s.menu with menuStatus := .noMenusActive, mainMenuIndex := 0, secondaryMenuIndex := 0 }

/-- Promotion from `NO_MENUS_ACTIVE` (R185). -/
def State.promote (s : State) : State :=
  match s.menu.menuStatus with
  | .noMenusActive => (s.setMenu { s.menu with menuStatus := .primaryMenuActive }).showMenu
  | _ => s

/-- The menu function has returned `r` (R187). -/
def State.menuReturned (r : Idx) (s : State) : State :=
  (s.setMenu { s.menu with
    secondaryChoice := r, menuStatus := .secondaryMenuActive, secondaryMenuIndex := -1 }).showMenu

/-- The rest of select once the menu function is called: it waits for `ret_valid` (R80, R187, R209). -/
def State.menuReturn (s : State) : State :=
  match s.env.ret with
  | [] => s.setMicro .menuWait
  | r :: _ => ((s.dropRet).menuReturned r).setMicro .idle

/-- Select while `PRIMARY_MENU_ACTIVE`: call the menu function (R187). -/
def State.selectPrimary (s : State) : State := (s.emit (.CALL_MENUFN s.menu.mainMenuIndex)).menuReturn

/-- Select while `SECONDARY_MENU_ACTIVE`: collapse (R188). -/
def State.selectSecondary (s : State) : State :=
  (s.setMenu { s.menu with menuStatus := .primaryMenuActive, mainMenuIndex := 0 }).showMenu

/-- The rule of `SELECT` at dispatch: a menu is active there (R185, R187, R188). -/
def State.select (s : State) : State :=
  match s.menu.menuStatus with
  | .secondaryMenuActive => s.selectSecondary
  | _ => s.selectPrimary

/-- `mainMenuIndex` one further, from the last entry to 0 (R189). -/
def menuUp (nMain : Nat) (m : Idx) : Idx := if m.toInt = nMain - 1 then 0 else m + 1

/-- `mainMenuIndex` one back, from 0 to the last entry (R190). -/
def menuDown (nMain : Nat) (m : Idx) : Idx := if m = 0 then BitVec.ofInt 8 (nMain - 1) else m - 1

/-- Move the highlight; the display is told only while some menu is active (R189, R190, conflict C3). -/
def State.navigate (m : Idx) (s : State) : State :=
  let t := s.setMenu { s.menu with mainMenuIndex := m }
  if t.menu.menuStatus = .noMenusActive then t else t.showMenu

/-- The extended flow opens, where the build has it (R205). -/
def State.mapFlow (s : State) : State :=
  match s.straps.sdFlow with
  | .PRESENT => (s.setMenu { s.menu with flowActive := true }).emit .FLOW_OPEN
  | .ABSENT => s.emit (.ACTION Action.MAP_FLOW.id)

/-- The rule of action `a` (R186 to R205). -/
def State.runAction (a : Action) (s : State) : State :=
  match a with
  | .SELECT => s.select
  | .MENU_UP => s.navigate (menuUp s.params.nMain s.menu.mainMenuIndex)
  | .MENU_DOWN => s.navigate (menuDown s.params.nMain s.menu.mainMenuIndex)
  | .MAP_FLOW => s.mapFlow
  | .BAND_UP => s.emit (.ACTION a.id)
  | .ZOOM => s.emit (.ACTION a.id)
  | .BAND_DOWN => s.emit (.ACTION a.id)
  | .FILTER => s.emit (.ACTION a.id)
  | .DEMOD => s.emit (.ACTION a.id)
  | .MODE => s.emit (.ACTION a.id)
  | .NOISE_REDUCTION => s.emit (.ACTION a.id)
  | .NOTCH => s.emit (.ACTION a.id)
  | .NOISE_FLOOR => s.emit (.ACTION a.id)
  | .FINE_TUNE_INC => s.emit (.ACTION a.id)
  | .DECODER_TOGGLE => s.emit (.ACTION a.id)
  | .MAIN_TUNE_INC => s.emit (.ACTION a.id)
  | .RESET_TUNING => s.emit (.ACTION a.id)
  | .FREQ_ENTRY => s.emit (.ACTION a.id)

/-- `menu.press k`: the contract check (`k` in `[0, N_SW)`, no flow), the select-with-no-menu test, the promotion, the dispatch
(R180, R183 to R186). -/
def State.menuPress (k : Button) (s : State) : State :=
  if s.menu.flowActive ∨ s.params.nSw ≤ k.val then s.outOfContract
  else if k = s.params.selectIndex ∧ s.menu.menuStatus = .noMenusActive then s.selectNoMenu
  else (s.promote).runAction s.params.actionMap[k]

/-- `menu.press k` for an index that has no row of the table: its action where `N_SW` takes it in, else out of contract
(R182, R183). -/
def State.pressUnlisted (k : Idx) (s : State) : State :=
  if h : k.toNat < Config.maxSw then s.menuPress ⟨k.toNat, h⟩ else s.outOfContract

/-- `menu.press 0`, select with the default `ACTION_MAP` (R184, R187, R188; R183, R185, R186). -/
def execMenuPress0 (s : State) : Host.Outcome State Fault Refusal := .next (s.menuPress 0)

/-- `menu.press 1`, menu up with the default `ACTION_MAP` (R189; R183, R185, R186). -/
def execMenuPress1 (s : State) : Host.Outcome State Fault Refusal := .next (s.menuPress 1)

/-- `menu.press 2`, band up with the default `ACTION_MAP` (R191; R183, R185, R186). -/
def execMenuPress2 (s : State) : Host.Outcome State Fault Refusal := .next (s.menuPress 2)

/-- `menu.press 3`, zoom with the default `ACTION_MAP` (R193; R183, R185, R186). -/
def execMenuPress3 (s : State) : Host.Outcome State Fault Refusal := .next (s.menuPress 3)

/-- `menu.press 4`, menu down with the default `ACTION_MAP` (R190; R183, R185, R186). -/
def execMenuPress4 (s : State) : Host.Outcome State Fault Refusal := .next (s.menuPress 4)

/-- `menu.press 5`, band down with the default `ACTION_MAP` (R192; R183, R185, R186). -/
def execMenuPress5 (s : State) : Host.Outcome State Fault Refusal := .next (s.menuPress 5)

/-- `menu.press 6`, filter with the default `ACTION_MAP` (R194; R183, R185, R186). -/
def execMenuPress6 (s : State) : Host.Outcome State Fault Refusal := .next (s.menuPress 6)

/-- `menu.press 7`, demodulation mode with the default `ACTION_MAP` (R195; R183, R185, R186). -/
def execMenuPress7 (s : State) : Host.Outcome State Fault Refusal := .next (s.menuPress 7)

/-- `menu.press 8`, transmit/receive mode with the default `ACTION_MAP` (R196; R183, R185, R186). -/
def execMenuPress8 (s : State) : Host.Outcome State Fault Refusal := .next (s.menuPress 8)

/-- `menu.press 9`, noise reduction with the default `ACTION_MAP` (R197; R183, R185, R186). -/
def execMenuPress9 (s : State) : Host.Outcome State Fault Refusal := .next (s.menuPress 9)

/-- `menu.press 10`, notch filter with the default `ACTION_MAP` (R198; R183, R185, R186). -/
def execMenuPress10 (s : State) : Host.Outcome State Fault Refusal := .next (s.menuPress 10)

/-- `menu.press 11`, noise floor with the default `ACTION_MAP` (R199; R183, R185, R186). -/
def execMenuPress11 (s : State) : Host.Outcome State Fault Refusal := .next (s.menuPress 11)

/-- `menu.press 12`, fine-tune increment with the default `ACTION_MAP` (R200; R183, R185, R186). -/
def execMenuPress12 (s : State) : Host.Outcome State Fault Refusal := .next (s.menuPress 12)

/-- `menu.press 13`, decoder toggle with the default `ACTION_MAP` (R201; R183, R185, R186). -/
def execMenuPress13 (s : State) : Host.Outcome State Fault Refusal := .next (s.menuPress 13)

/-- `menu.press 14`, main-tune increment with the default `ACTION_MAP` (R202; R183, R185, R186). -/
def execMenuPress14 (s : State) : Host.Outcome State Fault Refusal := .next (s.menuPress 14)

/-- `menu.press 15`, tuning reset with the default `ACTION_MAP` (R203; R183, R185, R186). -/
def execMenuPress15 (s : State) : Host.Outcome State Fault Refusal := .next (s.menuPress 15)

/-- `menu.press 16`, frequency direct entry with the default `ACTION_MAP` (R204; R183, R185, R186). -/
def execMenuPress16 (s : State) : Host.Outcome State Fault Refusal := .next (s.menuPress 16)

/-- `menu.press 17`, extended map flow with the default `ACTION_MAP` (R205; R183, R185, R186). -/
def execMenuPress17 (s : State) : Host.Outcome State Fault Refusal := .next (s.menuPress 17)

/-- `menu.flowkey k` (R206). -/
def execMenuFlowkey (k : Idx) (s : State) : Host.Outcome State Fault Refusal :=
  if s.menu.flowActive ∧ k.toNat < s.params.nSw then
    if k.toNat = s.params.flowTriggerIndex.val then
      .next ((s.setMenu { s.menu with flowActive := false }).emit .FLOW_CLOSE)
    else .next (s.emit (.FLOW_KEY k))
  else .next s.outOfContract

end Sys2Proof.Machine
end

