-- ==== Sys2Proof/Machine/System.lean ====
section
/-! DEFINITION. The critical section (spec/44_foreground_and_system.md rules R220 to R222). -/

namespace Sys2Proof.Machine

/-- `irqEnable <- b`: one bit, no nesting (R222). -/
def State.setIrqEnable (b : Bool) (s : State) : State := s.setSys { s.sys with irqEnable := b }

/-- `cli`: `irqEnable <- 0` (R220). -/
def execCli (s : State) : Host.Outcome State Fault Refusal := .next (s.setIrqEnable false)

/-- `sei`: `irqEnable <- 1` (R221). -/
def execSei (s : State) : Host.Outcome State Fault Refusal := .next (s.setIrqEnable true)

end Sys2Proof.Machine
end

