-- ==== Sys2Proof/Machine/Dispatch.lean ====
section
/-! DEFINITION. The meaning of every operation: one arm per constructor of `Instr`. -/

namespace Sys2Proof.Machine

def exec (i : Instr) (s : State) : Host.Outcome State Fault Refusal :=
  match i with
  | .cli => Sys2Proof.Machine.execCli s
  | .sei => Sys2Proof.Machine.execSei s
  | .qdecUpdate e a b => Sys2Proof.Machine.execQdecUpdate e a b s
  | .qdecProcess e => Sys2Proof.Machine.execQdecProcess e s
  | .abcPoll => Sys2Proof.Machine.execAbcPoll s
  | .abcSample => Sys2Proof.Machine.execAbcSample s
  | .abcClassify v => Sys2Proof.Machine.execAbcClassify v s
  | .abcSettle => Sys2Proof.Machine.execAbcSettle s
  | .abcCalload j v => Sys2Proof.Machine.execAbcCalload j v s
  | .abcWrload v => Sys2Proof.Machine.execAbcWrload v s
  | .pxInit c => Sys2Proof.Machine.execPxInit c s
  | .pxIsr c => Sys2Proof.Machine.execPxIsr c s
  | .pxTake => Sys2Proof.Machine.execPxTake s
  | .menuPress0 => Sys2Proof.Machine.execMenuPress0 s
  | .menuPress1 => Sys2Proof.Machine.execMenuPress1 s
  | .menuPress2 => Sys2Proof.Machine.execMenuPress2 s
  | .menuPress3 => Sys2Proof.Machine.execMenuPress3 s
  | .menuPress4 => Sys2Proof.Machine.execMenuPress4 s
  | .menuPress5 => Sys2Proof.Machine.execMenuPress5 s
  | .menuPress6 => Sys2Proof.Machine.execMenuPress6 s
  | .menuPress7 => Sys2Proof.Machine.execMenuPress7 s
  | .menuPress8 => Sys2Proof.Machine.execMenuPress8 s
  | .menuPress9 => Sys2Proof.Machine.execMenuPress9 s
  | .menuPress10 => Sys2Proof.Machine.execMenuPress10 s
  | .menuPress11 => Sys2Proof.Machine.execMenuPress11 s
  | .menuPress12 => Sys2Proof.Machine.execMenuPress12 s
  | .menuPress13 => Sys2Proof.Machine.execMenuPress13 s
  | .menuPress14 => Sys2Proof.Machine.execMenuPress14 s
  | .menuPress15 => Sys2Proof.Machine.execMenuPress15 s
  | .menuPress16 => Sys2Proof.Machine.execMenuPress16 s
  | .menuPress17 => Sys2Proof.Machine.execMenuPress17 s
  | .menuFlowkey k => Sys2Proof.Machine.execMenuFlowkey k s

end Sys2Proof.Machine
end

