-- ==== Sys2Proof/Machine/Environment.lean ====
section
/-! DEFINITION. The steps of the environment (spec/20_memory.md rule R54) and the `reset` input
(spec/70_reset_and_hazards.md rule R270). -/

namespace Sys2Proof.Machine

/-- `env.pin(c, p, v)`: the level and, on a change, the change detector in the same step (R54, R143). -/
def State.envPin (c : Chip) (p : Pin) (v : Bool) (s : State) : State :=
  if s.pinLevel c p = v then s
  else (s.setEnv { s.env with level := s.env.level.set c (writePin s.env.level[c] p v) }).setChip c
    (s.chip[c].detectChange p)

/-- Reset (R270): every register takes its reset value, every operation in progress is abandoned, no event is emitted; the
environment, what has been output and the turns to come are not the block's registers and stay. -/
def State.resetBlock (s : State) : State :=
  { State.atReset s.params s.env with out := s.out, turns := s.turns, turnCycle := s.turnCycle, report := s.report }

/-- A step of the environment (R54). -/
def State.envStep (s : State) : EnvStep → State
  | .pin c p v => s.envPin c p v
  | .adc v => s.setEnv { s.env with adc := s.env.adc ++ [lowBits s.params.adcW v] }
  | .ack c a => s.setEnv { s.env with ack := s.env.ack.set c a }
  | .menufn r => s.setEnv { s.env with ret := s.env.ret ++ [r] }
  | .cal i v => s.setEnv { s.env with calStore := s.env.calStore.set i (lowBits s.params.adcW v) }
  | .wiggle v => s.setEnv { s.env with wiggleStore := lowBits s.params.adcW v }
  | .command w d => s.setEnv { s.env with cmds := s.env.cmds ++ [(w, d)] }
  | .straps v => s.setEnv { s.env with strapPins := v }
  | .reset => s.resetBlock

end Sys2Proof.Machine
end

