-- ==== Sys2Proof/Decode.lean ====
section
/-! DEFINITION. Command words (spec/30_encoding.md rules R60 to R63, R72 to R75): the decoder, total on every pair of a
command word and a data operand word for every `ADC_W` (R5), rejecting by name; and after it the encoder, written from
the same tables. -/

namespace Sys2Proof

/-- Why a command word selects no operation of the table. -/
inductive Reject where
  /-- `UNIT` in `0x5..0xF` (R63) -/
  | reservedUnit
  /-- an `OP` above the last one its unit lists, or `OP` 0 of SYS (R75) -/
  | reservedOp
  /-- a bit of `ARG` that the format does not name is 1 (R61) -/
  | nonzeroArg
  /-- `din[15:ADC_W]` is not 0 (R72) -/
  | dinTooWide
  /-- a `menu.press` word `0x4012` to `0x40FF`: not reserved, but no row of the table; rule R183 decides it (R75) -/
  | pressUnlisted (k : Idx)
  deriving DecidableEq, Repr

/-- `cmd[15:12]` (R60). -/
def unitField (w : Word) : Nat := w.toNat / 4096
/-- `cmd[11:8]` (R60). -/
def opField (w : Word) : Nat := w.toNat / 256 % 16
/-- `cmd[7:0]` (R60). -/
def argField (w : Word) : Nat := w.toNat % 256

/-- Format `N`: `ARG` is all zero (R61). -/
def formatN (w : Word) (i : Instr) : Except Reject Instr :=
  if argField w = 0 then .ok i else .error .nonzeroArg

/-- Modifier `D`: the operand is the word on `din`, whose bits `15:ADC_W` are 0 (R61, R72). -/
def formatD (adcW : Nat) (d : Word) (i : Instr) : Except Reject Instr :=
  if DinFits adcW d then .ok i else .error .dinTooWide

/-- Format `U`: `[7:4]` = 0, `[3:2]` = `e`, `[1]` = `pinB`, `[0]` = `pinA` (R61). -/
def formatU (w : Word) (mk : EncId → Bool → Bool → Instr) : Except Reject Instr :=
  if argField w < 16 then .ok (mk (Fin.ofNat 4 (argField w / 4)) (w.getLsbD 0) (w.getLsbD 1))
  else .error .nonzeroArg

/-- Format `E`: `[7:2]` = 0, `[1:0]` = `e` (R61). -/
def formatE (w : Word) (mk : EncId → Instr) : Except Reject Instr :=
  if argField w < 4 then .ok (mk (Fin.ofNat 4 (argField w))) else .error .nonzeroArg

/-- Format `I` with `D`: `[7:5]` = 0, `[4:0]` = `i` (R61). -/
def formatI (adcW : Nat) (w d : Word) (mk : BitVec 5 → Word → Instr) : Except Reject Instr :=
  if argField w < 32 then formatD adcW d (mk (BitVec.ofNat 5 (argField w)) d) else .error .nonzeroArg

/-- Format `C`: `[7:1]` = 0, `[0]` = `c` (R61). -/
def formatC (w : Word) (mk : Chip → Instr) : Except Reject Instr :=
  if argField w < 2 then .ok (mk (Fin.ofNat 2 (argField w))) else .error .nonzeroArg

/-- Format `K`: `[7:0]` = `k`, a signed 8-bit `ButtonIndex` (R61). -/
def argIdx (w : Word) : Idx := BitVec.ofNat 8 (argField w)

/-- The operation `menu.press k` for an index that has a row of the table (R73). -/
def pressOf : Nat → Option Instr
  | 0 => some .menuPress0
  | 1 => some .menuPress1
  | 2 => some .menuPress2
  | 3 => some .menuPress3
  | 4 => some .menuPress4
  | 5 => some .menuPress5
  | 6 => some .menuPress6
  | 7 => some .menuPress7
  | 8 => some .menuPress8
  | 9 => some .menuPress9
  | 10 => some .menuPress10
  | 11 => some .menuPress11
  | 12 => some .menuPress12
  | 13 => some .menuPress13
  | 14 => some .menuPress14
  | 15 => some .menuPress15
  | 16 => some .menuPress16
  | 17 => some .menuPress17
  | _ => none

/-- Format `K` of `menu.press`: a word whose index has no row is not reserved (R75). -/
def formatPress (w : Word) : Except Reject Instr :=
  match pressOf (argField w) with
  | some i => .ok i
  | none => .error (.pressUnlisted (argIdx w))

/-- The operation that a command word, with the word on `din`, selects in the map of rule R73, where conversion results have
`adcW` bits. -/
def decode (adcW : Nat) (w d : Word) : Except Reject Instr :=
  match unitField w, opField w with
  | 0, 1 => formatN w .cli
  | 0, 2 => formatN w .sei
  | 0, _ => .error .reservedOp
  | 1, 0 => formatU w .qdecUpdate
  | 1, 1 => formatE w .qdecProcess
  | 1, _ => .error .reservedOp
  | 2, 0 => formatN w .abcPoll
  | 2, 1 => formatN w .abcSample
  | 2, 2 => (formatN w (.abcClassify d)).bind (formatD adcW d)
  | 2, 3 => formatN w .abcSettle
  | 2, 4 => formatI adcW w d .abcCalload
  | 2, 5 => (formatN w (.abcWrload d)).bind (formatD adcW d)
  | 2, _ => .error .reservedOp
  | 3, 0 => formatC w .pxInit
  | 3, 1 => formatC w .pxIsr
  | 3, 2 => formatN w .pxTake
  | 3, _ => .error .reservedOp
  | 4, 0 => formatPress w
  | 4, 1 => .ok (.menuFlowkey (argIdx w))
  | 4, _ => .error .reservedOp
  | _, _ => .error .reservedUnit

/-- What the foreground agent is asked to do: an operation of the table, a `menu.press` of an index that has no row (R183
decides it by `N_SW`), or nothing at all because the word is reserved (R75). -/
inductive Request where
  | op (i : Instr)
  | pressUnlisted (k : Idx)
  | reserved
  deriving DecidableEq, Repr

/-- The command port's reading of a word: as the map says, but `px.isr` is a reserved encoding there (R74, R75). -/
def commandRequest (adcW : Nat) (w d : Word) : Request :=
  match decode adcW w d with
  | .ok (.pxIsr _) => .reserved
  | .ok i => .op i
  | .error (.pressUnlisted k) => .pressUnlisted k
  | .error _ => .reserved

/-- A word from its three fields (R60). -/
def wordOf (unit op arg : Nat) : Word := BitVec.ofNat 16 (unit * 4096 + op * 256 + arg)

/-- The words of an instruction: the command word and, for a `D` operand, the word on `din` (else 0). -/
def encode : Instr → Word × Word
  | .cli => (0x0100#16, 0#16)
  | .sei => (0x0200#16, 0#16)
  | .qdecUpdate e a b => (wordOf 1 0 (e.val * 4 + b.toNat * 2 + a.toNat), 0#16)
  | .qdecProcess e => (wordOf 1 1 e.val, 0#16)
  | .abcPoll => (0x2000#16, 0#16)
  | .abcSample => (0x2100#16, 0#16)
  | .abcClassify v => (0x2200#16, v)
  | .abcSettle => (0x2300#16, 0#16)
  | .abcCalload i v => (wordOf 2 4 i.toNat, v)
  | .abcWrload v => (0x2500#16, v)
  | .pxInit c => (wordOf 3 0 c.val, 0#16)
  | .pxIsr c => (wordOf 3 1 c.val, 0#16)
  | .pxTake => (0x3200#16, 0#16)
  | .menuPress0 => (0x4000#16, 0#16)
  | .menuPress1 => (0x4001#16, 0#16)
  | .menuPress2 => (0x4002#16, 0#16)
  | .menuPress3 => (0x4003#16, 0#16)
  | .menuPress4 => (0x4004#16, 0#16)
  | .menuPress5 => (0x4005#16, 0#16)
  | .menuPress6 => (0x4006#16, 0#16)
  | .menuPress7 => (0x4007#16, 0#16)
  | .menuPress8 => (0x4008#16, 0#16)
  | .menuPress9 => (0x4009#16, 0#16)
  | .menuPress10 => (0x400A#16, 0#16)
  | .menuPress11 => (0x400B#16, 0#16)
  | .menuPress12 => (0x400C#16, 0#16)
  | .menuPress13 => (0x400D#16, 0#16)
  | .menuPress14 => (0x400E#16, 0#16)
  | .menuPress15 => (0x400F#16, 0#16)
  | .menuPress16 => (0x4010#16, 0#16)
  | .menuPress17 => (0x4011#16, 0#16)
  | .menuFlowkey k => (wordOf 4 1 k.toNat, 0#16)

/-- The `menu.press k` word of any 8-bit `k`, inside the contract or not (R73, R75). -/
def pressWord (k : Idx) : Word := wordOf 4 0 k.toNat

/-- A row of the operation map: a word `w` selects it when `w` and its mask give its match (R73). -/
abbrev Row := Word × Word

/-- The `match`/`mask` columns of rule R73, in the table's order. -/
def opcodeRows : List Row :=
  [(0x0100#16, 0xFFFF#16),
   (0x0200#16, 0xFFFF#16),
   (0x1000#16, 0xFFF0#16),
   (0x1100#16, 0xFFFC#16),
   (0x2000#16, 0xFFFF#16),
   (0x2100#16, 0xFFFF#16),
   (0x2200#16, 0xFFFF#16),
   (0x2300#16, 0xFFFF#16),
   (0x2400#16, 0xFFE0#16),
   (0x2500#16, 0xFFFF#16),
   (0x3000#16, 0xFFFE#16),
   (0x3100#16, 0xFFFE#16),
   (0x3200#16, 0xFFFF#16)] ++
  [(0x4000#16, 0xFFFF#16), (0x4001#16, 0xFFFF#16), (0x4002#16, 0xFFFF#16), (0x4003#16, 0xFFFF#16), (0x4004#16, 0xFFFF#16), (0x4005#16, 0xFFFF#16), (0x4006#16, 0xFFFF#16), (0x4007#16, 0xFFFF#16), (0x4008#16, 0xFFFF#16)] ++
  [(0x4009#16, 0xFFFF#16), (0x400A#16, 0xFFFF#16), (0x400B#16, 0xFFFF#16), (0x400C#16, 0xFFFF#16), (0x400D#16, 0xFFFF#16), (0x400E#16, 0xFFFF#16), (0x400F#16, 0xFFFF#16), (0x4010#16, 0xFFFF#16), (0x4011#16, 0xFFFF#16),
   (0x4100#16, 0xFF00#16)]

/-- R73: "a word `w` selects the row when `(w & mask) = match`". -/
def Row.selects (r : Row) (w : Word) : Bool := (w &&& r.2) == r.1

/-- The instruction read from a table row's bits: the command word is bits 15..0, the word on `din` bits 31..16; every bit
from `nbits` up is 0. `ADC_W` is the default, as in `State.reset`. -/
def decodeTableWord (nbits w : Nat) : Option Instr :=
  let bits := w % 2 ^ nbits
  (decode Config.adcW (BitVec.ofNat 16 bits) (BitVec.ofNat 16 (bits / 65536))).toOption

end Sys2Proof
end

