-- ==== Sys2Proof/Machine/Sequencer.lean ====
section
/-! DEFINITION. The foreground sequencer (spec/44_foreground_and_system.md rules R230 to R235,
spec/70_reset_and_hazards.md rule R272): which operation comes next in each phase, and what is done with its result. -/

namespace Sys2Proof.Machine

/-- The boot sequence (R272): the calibration table, the tolerance and, in `EXPANDER` mode, both chips and `sei`. -/
def State.bootRequests (s : State) : List Request :=
  ((buttons s.params.nSw).map fun i => .op (.abcCalload (BitVec.ofNat 5 i.val) s.env.calStore[i])) ++
  [.op (.abcWrload s.env.wiggleStore)] ++
  (match s.straps.acqMode with
    | .EXPANDER => [.op (.pxInit 0), .op (.pxInit 1), .op .sei]
    | .ANALOG => [])

/-- `menu.press k` as the foreground issues it. -/
def pressRequest (k : Idx) : Request :=
  match pressOf k.toNat with
  | some i => .op i
  | none => .pressUnlisted k

/-- The operation of phase `PH_PRESS` (R232): `menu.flowkey` during the flow, else `menu.press`. -/
def State.dispatchRequest (s : State) : Request :=
  if s.menu.flowActive then .op (.menuFlowkey s.sys.fgButton) else pressRequest s.sys.fgButton

/-- One critical section around an operation (R78). -/
def critical (i : Instr) : List Request := [.op .cli, .op i, .op .sei]

/-- The operations of a phase, in order (R231 to R233). -/
def State.phaseRequests (s : State) : List Request :=
  match s.sys.fgPhase with
  | .PH_BOOT => s.bootRequests
  | .PH_TAKE => critical .pxTake
  | .PH_ENC => (List.finRange Config.nEnc).flatMap fun e => critical (.qdecProcess e)
  | .PH_POLL => [.op .abcPoll]
  | .PH_SETTLE => [.op .abcSettle]
  | .PH_PRESS => if s.sys.fgButton = Idx.NONE then [] else [s.dispatchRequest]

/-- The next operation of the sequencer; `none` when the phase issues no more. -/
def State.sequencerRequest (s : State) : Option Request := s.phaseRequests[s.prog.seqPos]?

/-- The first phase of the loop: `PH_TAKE` in `EXPANDER` mode, else `PH_POLL` (R231). -/
def Straps.firstPhase (x : Straps) : FgPhase :=
  match x.acqMode with
  | .EXPANDER => .PH_TAKE
  | .ANALOG => .PH_POLL

/-- Enter phase `p` at its first operation. -/
def State.toPhase (p : FgPhase) (s : State) : State :=
  (s.setSys { s.sys with fgPhase := p }).setProg { s.prog with seqPos := 0, seqDir := .noStep }

/-- The end of a phase (R231 to R233). -/
def State.phaseEnd (s : State) : State :=
  match s.sys.fgPhase with
  | .PH_BOOT => s.toPhase s.straps.firstPhase
  | .PH_TAKE => s.toPhase .PH_ENC
  | .PH_ENC => s.toPhase .PH_PRESS
  | .PH_POLL => s.toPhase (if s.sys.fgButton = Idx.NONE then .PH_POLL else .PH_SETTLE)
  | .PH_SETTLE => s.toPhase .PH_PRESS
  | .PH_PRESS => (s.setSys { s.sys with fgButton := Idx.NONE }).toPhase s.straps.firstPhase

/-- The number of operations of a phase that has issued one. -/
def State.phaseLength (s : State) : Nat :=
  match s.sys.fgPhase with
  | .PH_BOOT => s.bootRequests.length
  | .PH_TAKE => 3
  | .PH_ENC => 12
  | .PH_POLL | .PH_SETTLE | .PH_PRESS => 1

/-- The result of the operation just completed, as it stands on `dout`. -/
def State.lastResponse (s : State) : Word := s.out.responses.getLast?.getD 0xFFFF#16

/-- The direction whose code stands on `dout[1:0]` (R67). -/
def directionOf (w : Word) : Direction :=
  match w.toNat % 4 with
  | 1 => .CW
  | 2 => .CCW
  | _ => .noStep

/-- What the sequencer does with the operation just completed (R232, R233): `fgButton <- px.take`, `fgButton <- abc.poll`,
`d <- qdec.process e`, and `ENC_EVENT(e, d)` after the section's `sei`. -/
def State.routeResult (s : State) : State :=
  match s.sys.fgPhase with
  | .PH_TAKE =>
    if s.prog.seqPos = 1 then s.setSys { s.sys with fgButton := s.lastResponse.setWidth 8 } else s
  | .PH_POLL => s.setSys { s.sys with fgButton := s.lastResponse.setWidth 8 }
  | .PH_ENC =>
    if s.prog.seqPos % 3 = 1 then s.setProg { s.prog with seqDir := directionOf s.lastResponse }
    else if s.prog.seqPos % 3 = 2 ∧ s.prog.seqDir ≠ .noStep then
      (s.emit (.ENC_EVENT (Fin.ofNat Config.nEnc (s.prog.seqPos / 3)) s.prog.seqDir)).setProg
        { s.prog with seqDir := .noStep }
    else s
  | .PH_BOOT | .PH_SETTLE | .PH_PRESS => s

/-- The next place of the phase, or the phase's end. -/
def State.advance (s : State) : State :=
  if s.prog.seqPos + 1 < s.phaseLength then s.setProg { s.prog with seqPos := s.prog.seqPos + 1 } else s.phaseEnd

/-- After a completed operation: with `SEQ_EN = 1` the sequencer routes the result and goes on (R231). -/
def State.afterOperation (s : State) : State :=
  match s.straps.seqEn with
  | .host => s
  | .sequencer => if s.busy then s else s.routeResult.advance

end Sys2Proof.Machine
end

