-- ==== Sys2Proof/Machine/Agents.lean ====
section
/-! DEFINITION. The agents' steps and whose turn it is (spec/20_memory.md rules R48, R49): the foreground (host or
sequencer, spec/44_foreground_and_system.md rules R231, R236), the two handlers, the environment. -/

namespace Sys2Proof.Machine

/-- Start an operation: its command word on the trace port (R81), then its meaning; when that completes it, the
sequencer goes on. -/
def State.startOperation (i : Instr) (s : State) : Host.Outcome State Fault Refusal :=
  match exec i (s.pushTrace (encode i).1) with
  | .next t => .next t.afterOperation
  | .fault r => .fault r
  | .refused r => .refused r

/-- The foreground takes up a request. A reserved word is no operation: `F_CMD` and nothing else (R75). A `menu.press` of an
index without a row is an operation, refused when the index is outside `[0, N_SW)` (R183). -/
def State.issue (q : Request) (s : State) : Host.Outcome State Fault Refusal :=
  match q with
  | .op i => s.startOperation i
  | .pressUnlisted k => .next ((s.pushTrace (pressWord k)).pressUnlisted k).afterOperation
  | .reserved => .next s.reservedWord

/-- The next micro-step of the operation in progress (R52, R113, R117, R187). -/
def State.continueOperation (s : State) : State :=
  match s.prog.micro with
  | .processClear e => s.processFinish e
  | .takeClear => s.takeFinish
  | .sampleWait => s.sampleOnce
  | .menuWait => s.menuReturn
  | .idle =>
    match s.abc.abcState with
    | .ABC_SAMPLING => s.pollPass
    | .ABC_SETTLING => s.settleFinish
    | .ABC_IDLE => s

/-- The command on the port has been accepted (R62). -/
def State.acceptCommand (s : State) : State := s.setEnv { s.env with cmds := s.env.cmds.tail }

/-- A step of the foreground agent. It takes none while a handler runs (R49 (c)), and none when nothing is asked of it. -/
def State.foregroundStep (s : State) : Host.Outcome State Fault Refusal :=
  if s.fgMayStep then
    if s.busy then .next s.continueOperation.afterOperation
    else match s.straps.seqEn with
      | .host =>
        match s.env.cmds with
        | [] => .next s
        | (w, d) :: _ => s.acceptCommand.issue (commandRequest s.params.adcW w d)
      | .sequencer =>
        match s.sequencerRequest with
        | some q => s.issue q
        | none => .next s.phaseEnd
  else .next s

/-- A step of handler `c`, which reports pending pins from `p` on: the next micro-step when it runs, the entry step when
that is enabled, else none (R49 (b)). The entry puts the word `0x3100 | c` on the trace port (R147). -/
def State.handlerStep (c : Chip) (p : Pin) (s : State) : Host.Outcome State Fault Refusal :=
  if s.handlerRunning c then exec (.pxIsr c) (s.setReport c p)
  else if s.handlerEnabled c then exec (.pxIsr c) ((s.setReport c p).pushTrace (encode (.pxIsr c)).1)
  else .next s

/-- `ISR[c]` may step (R49 (b)). -/
def State.handlerMayStep (s : State) (c : Chip) : Bool := s.handlerRunning c || s.handlerEnabled c

/-- Whose turn it is: the choice that stands in the state, the listed turns first and then the repeating round; when none
stands there, a handler that may step, chip 0 first and lowest pin first (R79), else the foreground. A `turnCycle` with
environment turns makes their number unbounded, one without them bounds it: a claim that a handler returns, or that the
foreground resumes, needs such a bound on the turns as its premise (R156; notes/assumptions/6.md). -/
def State.nextTurn (s : State) : Turn :=
  match s.comingTurns with
  | t :: _ => t
  | [] => if s.handlerMayStep 0 then .isr 0 0 else if s.handlerMayStep 1 then .isr 1 0 else .fg

/-- One atomic step of the agent whose turn it is (R48). -/
def State.takeTurn (t : Turn) (s : State) : Host.Outcome State Fault Refusal :=
  match t with
  | .fg => s.foregroundStep
  | .isr c p => s.handlerStep c p
  | .env e => .next (s.envStep e)

/-- The command and its data operand stand on the port of a host-driven block whose foreground may step, and it is the
foreground's turn: the next step accepts the command. -/
def State.presentCommand (w d : Word) (s : State) : State :=
  { s with
    chip := (s.chip.set 0 { s.chip[0] with isrState := .IDLE }).set 1 { s.chip[1] with isrState := .IDLE }
    abc := { s.abc with abcState := .ABC_IDLE }
    prog := { s.prog with micro := .idle }
    straps := { s.straps with seqEn := .host }
    env := { s.env with cmds := (w, d) :: s.env.cmds }
    turns := .fg :: s.turns }

/-- The entry condition of handler `c` holds and it is its turn: the next step is the `ENTRY` of `px.isr c` (R147). -/
def State.presentInterrupt (c : Chip) (s : State) : State :=
  { s with
    chip := s.chip.set c { s.chip[c] with isrState := .IDLE, irqLatch := true, pxConfigured := true }
    sys := { s.sys with irqEnable := true }
    straps := { s.straps with acqMode := .EXPANDER }
    turns := .isr c s.report[c] :: s.turns }

/-- The state whose next step runs the operation of the words `w`, `d`: presented on the command port or, for `px.isr`,
which only hardware starts (R74), by its entry condition. -/
def State.presentWord (w d : Word) (s : State) : State :=
  match decode s.params.adcW w d with
  | .ok (.pxIsr c) => s.presentInterrupt c
  | _ => s.presentCommand w d

end Sys2Proof.Machine
end

