-- ==== Sys2Proof/Machine/Step.lean ====
section
/-! DEFINITION. One step of the block: one atomic step of one agent (spec/20_memory.md rule R48). -/

namespace Sys2Proof.Machine

/-- One step of the agent whose turn it is. -/
def step (s : State) : Host.Outcome State Fault Refusal := s.popTurn.takeTurn s.nextTurn

/-- `s` with the instruction of a table row's bits placed so that the next step runs it: bits 15..0 are the command word,
bits 31..16 the word on `din`. -/
def State.withFetchWord (s : State) (nbits w : Nat) : State :=
  s.presentWord (BitVec.ofNat 16 (w % 2 ^ nbits)) (BitVec.ofNat 16 (w % 2 ^ nbits / 65536))

end Sys2Proof.Machine
end

