-- ==== Sys2Proof/Safety.lean ====
section
/-! DEFINITION. What counts as a safe run of the block, in the terms the statements use: the step goes on, and the
invariants that every step keeps. -/

namespace Sys2Proof.Machine

/-- The step answers a next state. -/
def GoesOn (o : Host.Outcome State Fault Refusal) : Prop := ∃ t, o = .next t

/-- R51: while interrupts are masked no handler is inside. -/
def State.SectionQuiet (s : State) : Prop :=
  s.sys.irqEnable = false → ∀ c : Chip, s.chip[c].isrState = .IDLE

/-- R23, R101: in `ANALOG` mode no handler is inside. -/
def State.AnalogQuiet (s : State) : Prop :=
  s.straps.acqMode = .ANALOG → ∀ c : Chip, s.chip[c].isrState = .IDLE

/-- R21, R210: the invariant of the menu registers that the operations keep, with the range of `N_MAIN` (R5). -/
def State.MenuInv (s : State) : Prop :=
  (1 ≤ s.params.nMain ∧ s.params.nMain ≤ 127) ∧
  (0 ≤ s.menu.mainMenuIndex.toInt ∧ s.menu.mainMenuIndex.toInt < s.params.nMain) ∧
  (s.menu.secondaryMenuIndex = -1 ∨ s.menu.secondaryMenuIndex = 0) ∧
  (s.menu.menuStatus = .secondaryMenuActive → s.menu.secondaryMenuIndex = -1)

/-- R96: the accumulators lie in the symmetric range of `ACC_W` bits. -/
def State.AccSymmetric (s : State) : Prop :=
  ∀ e : EncId, -accMax s.params.accW ≤ s.enc[e].acc ∧ s.enc[e].acc ≤ accMax s.params.accW

/-- A sample has no bit from `ADC_W` up (R10, R62). -/
abbrev SampleFits (adcW : Nat) (v : Sample) : Prop := v.toNat < 2 ^ adcW

/-- R10: the registers whose width is a parameter hold values of that width, and so do the inputs of that width; with the
constraints on the widths (R5). -/
structure State.RegistersFit (s : State) : Prop where
  widths : s.params.WidthsWf
  smoothInit : SampleFits s.params.adcW s.params.smoothInit
  acc : s.AccSymmetric
  fgTmp : -2 ^ (s.params.accW - 1) ≤ s.sys.fgTmp ∧ s.sys.fgTmp < 2 ^ (s.params.accW - 1)
  smoothed : SampleFits s.params.adcW s.abc.smoothed
  smoothedPrev : SampleFits s.params.adcW s.abc.smoothedPrev
  cal : ∀ i : Button, SampleFits s.params.adcW s.abc.cal[i]
  wiggleRoom : SampleFits s.params.adcW s.abc.wiggleRoom
  adc : ∀ v ∈ s.env.adc, SampleFits s.params.adcW v
  calStore : ∀ i : Button, SampleFits s.params.adcW s.env.calStore[i]
  wiggleStore : SampleFits s.params.adcW s.env.wiggleStore

/-- R143, R144: a pending change of an idle handler's chip has its request latched. -/
def State.ChangesLatched (s : State) : Prop :=
  ∀ c : Chip, s.chip[c].isrState = .IDLE → s.chip[c].pend ≠ 0 → s.chip[c].irqLatch = true

/-- R149: a handler is in `PARTNER` only for an encoder contact, and the pin map gives that contact its partner (R141). -/
def State.PartnerReady (s : State) : Prop :=
  s.params.pinMap.Wf s.params.nSw ∧ ∀ c : Chip, s.chip[c].isrState = .PARTNER →
    ∃ e, s.params.pinMap.kind c s.chip[c].curPin = .ENC_A e ∨ s.params.pinMap.kind c s.chip[c].curPin = .ENC_B e

/-- R121, R274: the table is strictly decreasing and its entries are more than `2 * WIGGLE_ROOM` apart, `WIGGLE_ROOM >= 1`. -/
def AbcRegs.Separated (a : AbcRegs) (nSw : Nat) : Prop :=
  1 ≤ a.wiggleRoom.toNat ∧
  ∀ i j : Button, i < j → j.val < nSw → a.cal[j].toNat + 2 * a.wiggleRoom.toNat < a.cal[i].toNat

/-- The estimate after the conversion results `raws`, from `prev` (R124). -/
def filterRun (prev : Sample) (raws : List Sample) : Sample := raws.foldl (fun p raw => smoothStep raw p) prev

/-- The step condition of `abc.poll` fails on every pass but the last (R124). -/
def StabilisesOn : Sample → List Sample → Prop
  | _, [] => False
  | prev, [raw] => stableFlag (smoothStep raw prev) prev = true
  | prev, raw :: rest =>
    stableFlag (smoothStep raw prev) prev = false ∧ StabilisesOn (smoothStep raw prev) rest

/-- The step condition of `abc.poll` fails on every pass (R124). -/
def NeverStable : Sample → List Sample → Prop
  | _, [] => True
  | prev, raw :: rest => stableFlag (smoothStep raw prev) prev = false ∧ NeverStable (smoothStep raw prev) rest

/-- A meaning after a meaning. -/
def andThen (o : Host.Outcome State Fault Refusal) (f : State → Host.Outcome State Fault Refusal) :
    Host.Outcome State Fault Refusal :=
  match o with
  | .next s => f s
  | .fault r => .fault r
  | .refused r => .refused r

/-- The samples `(pinA, pinB)` of a list given to instance `e`, one `qdec.update` each. -/
def runUpdates (e : EncId) : List (Bool × Bool) → State → Host.Outcome State Fault Refusal
  | [], s => .next s
  | (a, b) :: rest, s => andThen (exec (.qdecUpdate e a b) s) (runUpdates e rest)

/-- The decoder state with the roles of the directions exchanged (R101). -/
def DecState.mirror : DecState → DecState
  | .START => .START
  | .CW_BEGIN => .CCW_BEGIN | .CW_NEXT => .CCW_NEXT | .CW_FINAL => .CCW_FINAL
  | .CCW_BEGIN => .CW_BEGIN | .CCW_NEXT => .CW_NEXT | .CCW_FINAL => .CW_FINAL

/-- `qdec.process e` from start to end with no handler step between its micro-steps (R95, R52). -/
def drain (e : EncId) (s : State) : Host.Outcome State Fault Refusal :=
  andThen (exec (.qdecProcess e) s) fun t => .next (if s.sys.irqEnable then t.processFinish e else t)

/-- It is the foreground's turn, it may step, nothing is in progress, and the host presents `(w, d)` on the command port
(R62: the command is accepted at the next step). -/
def State.Accepting (s : State) (w d : Word) : Prop :=
  s.nextTurn = .fg ∧ s.fgMayStep = true ∧ s.busy = false ∧ s.straps.seqEn = .host ∧ s.env.cmds.head? = some (w, d)

/-- The state in which an accepted command is carried out: the turn is taken and the word is off the port. -/
def State.accepted (s : State) : State := s.popTurn.acceptCommand

/-- The turns in which the environment drives pin `p` of chip `c` to `v` and the handler, standing in `FETCH`, serves that
pin first: `FETCH`, `READ` and, for an encoder contact, `PARTNER` (R148, R149, R151). -/
def serviceRound (m : PinMap) (c : Chip) (p : Pin) (v : Bool) : List Turn :=
  .env (.pin c p v) ::
    match m.kind c p with
    | .ENC_A _ | .ENC_B _ => [.isr c p, .isr c p, .isr c p]
    | .SWITCH _ | .UNUSED => [.isr c p, .isr c p]

/-- The sequencer drives the foreground, both handlers are idle, nothing is in progress, and the next `n` turns are the
foreground's. -/
def State.SequencerRuns (s : State) (n : Nat) : Prop :=
  s.straps.seqEn = .sequencer ∧ s.fgMayStep = true ∧ s.busy = false ∧ s.turns = List.replicate n .fg

end Sys2Proof.Machine
end

