-- ==== Sys2Proof/Certificates/Slice0/Obligations.lean ====
section
/-! DEFINITION. The statements about the model, for the provers. Each docstring names the rule of spec/ it formalises.
Where a statement gives the whole next state, it says with it that `curPin[c]`, `curLevel[c]` and `fgTmp` keep their values
also when they are no longer in use; R18 leaves them unspecified then, and that is the model's choice and no rule of the
spec (notes/assumptions/31.md). -/

open Sys2Proof Sys2Proof.Machine

/-! ## Encoding -/

/-- R61, R72, R73: the words of a well-formed instruction decode to it, with every operand at every value and for every
`ADC_W`. -/
def Obligations.EncodedInstructionDecodesBack : Prop :=
  ∀ (adcW : Nat) (i : Instr), WellFormed adcW i = true → decode adcW (encode i).1 (encode i).2 = .ok i

/-- R61, R72, R73: an instruction that the decoder answers is well formed, its command word is the word decoded and its
data operand the word on `din`, for every `ADC_W`. No two words decode to one instruction. -/
def Obligations.DecodedInstructionHasItsWord : Prop :=
  ∀ (adcW : Nat) (w d : Word) (i : Instr), decode adcW w d = .ok i →
    (encode i).1 = w ∧ WellFormed adcW i = true ∧
    match i with
    | .abcClassify v => v = d
    | .abcCalload _ v => v = d
    | .abcWrload v => v = d
    | _ => True

/-- R73: "The rows are disjoint." -/
def Obligations.OpcodeRowsAreDisjoint : Prop :=
  ∀ r ∈ opcodeRows, ∀ r' ∈ opcodeRows, ∀ w : Word, r.selects w = true → r'.selects w = true → r = r'

/-- R75 (with R72, R74): which words are reserved on the command port, and that accepting one sets `F_CMD`, changes no other
register, emits no event and returns nothing. What the trace port shows is left open here (notes/assumptions/13.md). -/
def Obligations.ReservedWordSetsOnlyCommandFault : Prop :=
  (∀ (adcW : Nat) (w d : Word), commandRequest adcW w d = .reserved ↔
    ((∀ r ∈ opcodeRows, r.selects w = false) ∧ ¬(0x4012 ≤ w.toNat ∧ w.toNat ≤ 0x40FF)) ∨
    (w = 0x3100#16 ∨ w = 0x3101#16) ∨
    ((w = 0x2200#16 ∨ w = 0x2500#16 ∨ w &&& 0xFFE0#16 = 0x2400#16) ∧ ¬d.toNat < 2 ^ adcW)) ∧
  ∀ (s : State) (w d : Word), s.Accepting w d → commandRequest s.params.adcW w d = .reserved →
    ∃ tr, step s = .next { s.accepted with
      out := { s.out with trace := tr }, sys := { s.sys with fault := s.sys.fault ||| 0b001#3 } }

/-- R73: words of each family, written out from the table of the spec (spec/95_test_vectors.md E1), with `ADC_W` = 10. -/
def Obligations.FamilyWordsDecode : Prop :=
  decode 10 0x0100#16 0#16 = .ok .cli ∧ decode 10 0x0200#16 0#16 = .ok .sei ∧
  decode 10 0x100B#16 0#16 = .ok (.qdecUpdate 2 true true) ∧
  decode 10 0x1006#16 0#16 = .ok (.qdecUpdate 1 false true) ∧ decode 10 0x1103#16 0#16 = .ok (.qdecProcess 3) ∧
  decode 10 0x2405#16 0x01C2#16 = .ok (.abcCalload 5 450) ∧ decode 10 0x2000#16 0#16 = .ok .abcPoll ∧
  decode 10 0x3001#16 0#16 = .ok (.pxInit 1) ∧ decode 10 0x3200#16 0#16 = .ok .pxTake ∧
  decode 10 0x4011#16 0#16 = .ok .menuPress17 ∧ decode 10 0x4111#16 0#16 = .ok (.menuFlowkey 17)

/-! ## The step and the agents -/

/-- R62, R81, R231: when the foreground accepts a command that decodes to an instruction other than `px.isr`, the step is
`exec` of that instruction at that state, with the word off the port, the turn taken and the word on the trace port; when
the sequencer issues an operation, the step is `exec` of it in the same way, followed by what the phase does with it.
Two parts are the model's choice and no rule of the spec: the word is on the trace port also for an operation that `exec`
then refuses as out of contract (R81 speaks of operations started: notes/assumptions/17.md), and what the phase does with
the result happens in the operation's last step (notes/assumptions/18.md). -/
def Obligations.StepRunsTheAcceptedInstruction : Prop :=
  (∀ (s : State) (w d : Word) (i : Instr), s.Accepting w d → decode s.params.adcW w d = .ok i → (∀ c, i ≠ .pxIsr c) →
    step s = exec i (s.accepted.pushTrace w)) ∧
  ∀ (s u : State) (i : Instr), s.nextTurn = .fg → s.fgMayStep = true → s.busy = false →
    s.straps.seqEn = .sequencer → s.sequencerRequest = some (.op i) →
    exec i (s.popTurn.pushTrace (encode i).1) = .next u → step s = .next u.afterOperation

/-- R49 (b), R147, R23, R81: in the turn of handler `c` the step is `exec` of `px.isr c`: its next micro-step when the handler
runs, its entry with the word `0x3100 | c` on the trace port when the entry is enabled; else, in `ANALOG` mode among other
cases, the handler takes no step. That R23's "no handler runs" keeps the entry from being taken, whatever a host has
initialised and enabled, is the model's reading (notes/assumptions/28.md). -/
def Obligations.HandlerTurnRunsPxIsr : Prop :=
  ∀ (s : State) (c : Chip) (p : Pin), s.nextTurn = .isr c p →
    (s.chip[c].isrState ≠ .IDLE → step s = exec (.pxIsr c) (s.popTurn.setReport c p)) ∧
    (s.chip[c].isrState = .IDLE ∧ s.chip[c].irqLatch = true ∧ s.chip[c].pxConfigured = true ∧
        s.sys.irqEnable = true ∧ s.straps.acqMode = .EXPANDER →
      step s = exec (.pxIsr c) ((s.popTurn.setReport c p).pushTrace (BitVec.ofNat 16 (0x3100 + c.val)))) ∧
    (s.chip[c].isrState = .IDLE ∧ (s.chip[c].irqLatch = false ∨ s.chip[c].pxConfigured = false ∨
        s.sys.irqEnable = false ∨ s.straps.acqMode = .ANALOG) →
      step s = .next s.popTurn)

/-- R49 (c), R156: the foreground takes no step while a handler has not returned; a handler returns only from a `FETCH` that
finds nothing pending, or by reset; and it need not return: an environment that turns a pin of its chip back and forth,
one change before each `FETCH`, keeps it running for ever, whatever pin it is, the foreground standing where it was. -/
def Obligations.ForegroundWaitsForHandlers : Prop :=
  (∀ (s : State) (c : Chip), s.nextTurn = .fg → s.chip[c].isrState ≠ .IDLE → step s = .next s.popTurn) ∧
  (∀ (s t : State) (c : Chip), step s = .next t → s.nextTurn ≠ .env .reset → s.chip[c].isrState ≠ .IDLE →
    t.chip[c].isrState = .IDLE → s.chip[c].isrState = .FETCH ∧ s.chip[c].pend = 0) ∧
  ∀ (s : State) (c : Chip) (p : Pin), s.params.pinMap.Wf s.params.nSw → s.chip[c].pxConfigured = true →
    s.chip[c].isrState = .FETCH → s.turns = [] →
    s.turnCycle = serviceRound s.params.pinMap c p (!s.pinLevel c p) ++ serviceRound s.params.pinMap c p (s.pinLevel c p) →
    ∀ n : Nat, ∃ t, core.run n s = .next t ∧ t.chip[c].isrState ≠ .IDLE ∧
      t.abc = s.abc ∧ t.menu = s.menu ∧ t.sys = s.sys ∧ t.prog = s.prog ∧ t.env.cmds = s.env.cmds ∧ t.out = s.out

/-- R49 (a), R54, R143: a pin step of the environment always happens; it sets that level and no other; on a change of a pin
of a configured chip it sets the pin's `pend` bit and, when none was set, the latch; and it changes nothing else. -/
def Obligations.PinChangeIsDetected : Prop :=
  ∀ (s : State) (c : Chip) (p : Pin) (v : Bool), s.nextTurn = .env (.pin c p v) →
    ∃ t, step s = .next t ∧
      (∀ c' p', t.pinLevel c' p' = if c' = c ∧ p' = p then v else s.pinLevel c' p') ∧
      (∀ c', c' ≠ c → t.chip[c'] = s.chip[c']) ∧
      (s.pinLevel c p = v ∨ s.chip[c].pxConfigured = false → t.chip[c] = s.chip[c]) ∧
      (s.pinLevel c p ≠ v ∧ s.chip[c].pxConfigured = true →
        t.chip[c] = { s.chip[c] with
          pend := s.chip[c].pend ||| 1#16 <<< p.val
          irqLatch := if s.chip[c].pend = 0#16 then true else s.chip[c].irqLatch }) ∧
      t = { s with turns := s.comingTurns.tail, chip := t.chip, env := { s.env with level := t.env.level } }

/-- R270: the `reset` input in any state gives every register the value of the list, abandons what is in progress (no
operation is, and the sequencer stands before its first one), and leaves the environment and what has been output. The
values of `CAL`, `WIGGLE_ROOM`, `curPin`, `curLevel` and `fgTmp`,
which the spec leaves unspecified, are not stated. -/
def Obligations.ResetGivesTheResetValues : Prop :=
  ∀ s : State, s.nextTurn = .env .reset → ∃ t, step s = .next t ∧
    (∀ e : EncId, t.enc[e] = { decodeState := .START, acc := 0 }) ∧
    (t.abc.smoothed = s.params.smoothInit ∧ t.abc.smoothedPrev = s.params.smoothInit ∧ t.abc.stable = false ∧
      t.abc.abcState = .ABC_IDLE ∧ (∀ i : Button, t.abc.calValid[i] = false) ∧ t.abc.wrValid = false) ∧
    t.prog = { micro := .idle, seqPos := 0, seqDir := .noStep } ∧
    t.pendingButton = 0xFF#8 ∧
    (∀ c : Chip, t.chip[c].pxConfigured = false ∧ t.chip[c].pxInitFail = false ∧ t.chip[c].pend = 0 ∧
      t.chip[c].irqLatch = false ∧ t.chip[c].isrState = .IDLE) ∧
    t.menu = { menuStatus := .noMenusActive, mainMenuIndex := 0, secondaryMenuIndex := 0xFF#8,
               secondaryChoice := 0xFF#8, flowActive := false } ∧
    (t.sys.irqEnable = false ∧ t.sys.fgPhase = .PH_BOOT ∧ t.sys.fgButton = 0xFF#8 ∧ t.sys.fault = 0) ∧
    t.busy = false ∧ t.straps = s.env.strapPins ∧ t.params = s.params ∧ t.env = s.env ∧ t.out = s.out

/-- The state after reset meets the invariants of the statements below. `MenuInv` there rests on the model's `N_MAIN` = 5
and `PartnerReady` on the default pin map (notes/assumptions/4.md), `RegistersFit` on the default widths and on the values
the model gives the registers and the environment's inputs that the spec leaves unspecified (notes/assumptions/1.md, 2.md):
the model's choice. -/
def Obligations.ResetMeetsTheInvariants : Prop :=
  State.reset.SectionQuiet ∧ State.reset.AnalogQuiet ∧ State.reset.MenuInv ∧ State.reset.RegistersFit ∧ State.reset.ChangesLatched ∧
  State.reset.PartnerReady

/-- With a pin map that meets R141 no step of the block stops, whatever the state of its other registers; and the condition
is kept. -/
def Obligations.EveryStepGoesOn : Prop :=
  ∀ s : State, s.PartnerReady → ∃ t, step s = .next t ∧ t.PartnerReady

/-- R5, R15: no step writes a parameter, and only reset samples the straps. -/
def Obligations.ParametersAndStrapsAreConstant : Prop :=
  ∀ s t : State, step s = .next t →
    t.params = s.params ∧ (s.nextTurn ≠ .env .reset → t.straps = s.straps) ∧
    (s.nextTurn = .env .reset → t.straps = s.env.strapPins)

/-! ## The critical section and the fault bits -/

/-- R220, R221, R222: `cli` and `sei` write the one enable bit and nothing else; `cli, cli, sei` leaves interrupts enabled. -/
def Obligations.CliAndSeiWriteTheEnable : Prop :=
  (∀ (adcW : Nat) (d : Word), decode adcW 0x0100#16 d = .ok .cli ∧ decode adcW 0x0200#16 d = .ok .sei) ∧
  (∀ s : State, exec .cli s = .next { s with sys := { s.sys with irqEnable := false } }) ∧
  (∀ s : State, exec .sei s = .next { s with sys := { s.sys with irqEnable := true } }) ∧
  ∀ s : State, andThen (exec .cli s) (fun t => andThen (exec .cli t) (exec .sei)) =
    .next { s with sys := { s.sys with irqEnable := true } }

/-- R51: from any state in which "interrupts masked" implies "both handlers idle", every step keeps that; so between a `cli`
and the next `sei` no handler is entered. R23: the same of "`ACQ_MODE` is `ANALOG`": in that mode no handler runs, whatever
operations a host issues. -/
def Obligations.HandlersStayIdleMaskedOrAnalog : Prop :=
  (∀ s t : State, s.SectionQuiet → step s = .next t → t.SectionQuiet) ∧
  ∀ s t : State, s.AnalogQuiet → step s = .next t → t.AnalogQuiet

/-- R249: a fault bit or `pxInitFail[c]` that is set stays set through every step but reset. -/
def Obligations.FaultsAreSticky : Prop :=
  ∀ s t : State, step s = .next t → s.nextTurn ≠ .env .reset →
    (∀ b : Fin 3, s.sys.fault[b] = true → t.sys.fault[b] = true) ∧
    ∀ c : Chip, s.chip[c].pxInitFail = true → t.chip[c].pxInitFail = true

/-- R183, R247: outside its contract an operation sets `F_CONTRACT`, changes no other register and emits no event: every
`menu.press` during the flow or with an index outside `[0, N_SW)`, in the table or not, `menu.flowkey` outside the flow or
with such an index, `abc.calload` with an index `>= N_SW`. What the trace port shows for the word is left open here
(notes/assumptions/17.md). -/
def Obligations.OutOfContractIsRefused : Prop :=
  (∀ (k : Nat) (i : Instr) (s : State), pressOf k = some i → s.menu.flowActive = true ∨ s.params.nSw ≤ k →
    exec i s = .next { s with sys := { s.sys with fault := s.sys.fault ||| 0b100#3 } }) ∧
  (∀ (k : Idx) (s : State), s.menu.flowActive = false ∨ s.params.nSw ≤ k.toNat →
    exec (.menuFlowkey k) s = .next { s with sys := { s.sys with fault := s.sys.fault ||| 0b100#3 } }) ∧
  (∀ (j : BitVec 5) (v : Word) (s : State), s.params.nSw ≤ j.toNat → DinFits s.params.adcW v →
    exec (.abcCalload j v) s = .next { s with sys := { s.sys with fault := s.sys.fault ||| 0b100#3 } }) ∧
  ∀ (s : State) (k : Idx) (d : Word), s.Accepting (0x4000#16 ||| k.setWidth 16) d → 18 ≤ k.toNat →
    s.menu.flowActive = true ∨ s.params.nSw ≤ k.toNat ∨ 32 ≤ k.toNat →
    ∃ tr, step s = .next { s.accepted with
      out := { s.out with trace := tr }, sys := { s.sys with fault := s.sys.fault ||| 0b100#3 } }

/-- R72, R75: an operation whose data operand does not fit `ADC_W` bits is a reserved word also when it is executed: the
model's reading for a term that the decoder never gives (notes/assumptions/23.md). -/
def Obligations.WideDataOperandIsReserved : Prop :=
  ∀ (v : Word) (s : State) (i : Instr), 2 ^ s.params.adcW ≤ v.toNat →
    (i = .abcClassify v ∨ i = .abcWrload v ∨ ∃ j, i = .abcCalload j v) →
    exec i s = .next { s with sys := { s.sys with fault := s.sys.fault ||| 0b001#3 } }

/-! ## The quadrature decoder -/

/-- R94 (with R96): `qdec.update` runs in every state; the next state and at most one count come from the table's entry,
the count saturates symmetrically, and nothing else changes. -/
def Obligations.QdecUpdateLooksUpTheTable : Prop :=
  ∀ (e : EncId) (a b : Bool),
    (∀ adcW : Nat,
      decode adcW (0x1000#16 ||| BitVec.ofNat 16 (e.val * 4 + b.toNat * 2 + a.toNat)) 0#16 = .ok (.qdecUpdate e a b)) ∧
    ∀ s : State, ∃ t, exec (.qdecUpdate e a b) s = .next t ∧
      (let top : Int := 2 ^ (s.params.accW - 1) - 1
       let q := s.params.qtable.entry s.enc[e].decodeState (sampleOf a b)
       t.enc[e].decodeState = q.next ∧
       (q.dirCW = false → q.dirCCW = false → t.enc[e].acc = s.enc[e].acc) ∧
       (q.dirCW = true → q.dirCCW = false →
         t.enc[e].acc = min (max (s.enc[e].acc + 1) (-top)) top) ∧
       (q.dirCW = false → q.dirCCW = true →
         t.enc[e].acc = min (max (s.enc[e].acc - 1) (-top)) top)) ∧
      (∀ e', e' ≠ e → t.enc[e'] = s.enc[e']) ∧ t = { s with enc := t.enc }

/-- R93, R65: the default table, entry by entry, in the 6-bit form of the table's last column, and its states and flags. -/
def Obligations.DefaultTableEncodesItsRows : Prop :=
  (defaultQTable.toList.map fun r => r.toList.map fun q => q.bits.toNat) =
    [[0x00, 0x01, 0x04, 0x00], [0x00, 0x01, 0x00, 0x02], [0x00, 0x01, 0x03, 0x02], [0x10, 0x00, 0x03, 0x02],
     [0x00, 0x00, 0x04, 0x05], [0x00, 0x06, 0x04, 0x05], [0x20, 0x06, 0x00, 0x05]] ∧
  ∀ q : QEntry, (q.bits.toNat % 8 = q.next.code.val) ∧ q.bits.getLsbD 3 = false ∧
    q.bits.getLsbD 4 = q.dirCW ∧ q.bits.getLsbD 5 = q.dirCCW

/-- R95 (with R52, R67): masked, `qdec.process e` returns the sign of the accumulator and clears it in one step; unmasked it
is two micro-steps, the first copying the accumulator into `fgTmp`, the second, at whatever value the accumulator then
has, clearing it and returning the sign of `fgTmp`. That `fgTmp` keeps its value then is the model's choice
(notes/assumptions/31.md). -/
def Obligations.QdecProcessDrains : Prop :=
  ∀ (e : EncId),
    (∀ adcW : Nat, decode adcW (0x1100#16 ||| BitVec.ofNat 16 e.val) 0#16 = .ok (.qdecProcess e)) ∧
    (∀ (s : State) (r : Word), s.sys.irqEnable = false →
      (r = if s.enc[e].acc > 0 then 1#16 else if s.enc[e].acc < 0 then 2#16 else 0#16) →
      exec (.qdecProcess e) s = .next { s with
        enc := s.enc.set e { s.enc[e] with acc := 0 }
        out := { s.out with responses := s.out.responses ++ [r] } }) ∧
    (∀ s : State, s.sys.irqEnable = true →
      exec (.qdecProcess e) s = .next { s with
        sys := { s.sys with fgTmp := s.enc[e].acc }
        prog := { s.prog with micro := .processClear e } }) ∧
    ∀ (s : State) (r : Word), s.nextTurn = .fg → s.fgMayStep = true → s.straps.seqEn = .host →
      s.prog.micro = .processClear e →
      (r = if s.sys.fgTmp > 0 then 1#16 else if s.sys.fgTmp < 0 then 2#16 else 0#16) →
      step s = .next { s with
        turns := s.comingTurns.tail
        enc := s.enc.set e { s.enc[e] with acc := 0 }
        out := { s.out with responses := s.out.responses ++ [r] }
        prog := { s.prog with micro := .idle } }

/-- R99: a second `qdec.process` with no update between returns `NONE` and leaves the decoders as they are, masked or not. -/
def Obligations.SecondDrainReturnsNone : Prop :=
  ∀ (e : EncId) (s t : State), drain e s = .next t →
    ∃ u, drain e t = .next u ∧ u.out.responses = t.out.responses ++ [0#16] ∧ u.enc = t.enc

/-- R96, R10, R111: from any state whose registers fit their widths, for any widths that R5 admits, every step leads to such
a state: each accumulator stays in the symmetric range `±(2^(ACC_W-1) - 1)`, `fgTmp` in `ACC_W` bits, the estimates, the
table and the tolerance in `ADC_W` bits. -/
def Obligations.RegistersStayInTheirWidths : Prop :=
  ∀ s t : State, s.RegistersFit → step s = .next t → t.RegistersFit

/-- R98, for the default table: fed again, a sample carries no flag; it leaves the state too, but for the four named cases;
a third time it changes nothing. -/
def Obligations.RepeatedSampleNeverCounts : Prop :=
  ∀ (q : DecState) (x : Fin 4),
    let q1 := (defaultQTable.entry q x).next
    let q2 := (defaultQTable.entry q1 x).next
    let q3 := (defaultQTable.entry q2 x).next
    (defaultQTable.entry q1 x).dirCW = false ∧ (defaultQTable.entry q1 x).dirCCW = false ∧
    ((q, x) ∉ [(DecState.CW_BEGIN, (2 : Fin 4)), (.CW_FINAL, 1), (.CCW_BEGIN, 1), (.CCW_FINAL, 2)] → q2 = q1) ∧
    ((q, x) ∈ [(DecState.CW_BEGIN, (2 : Fin 4)), (.CW_FINAL, 1), (.CCW_BEGIN, 1), (.CCW_FINAL, 2)] →
      q1 = .START ∧ q2 = if x = 2 then .CCW_BEGIN else .CW_BEGIN) ∧
    (defaultQTable.entry q2 x).dirCW = false ∧ (defaultQTable.entry q2 x).dirCCW = false ∧ q3 = q2

/-- R100 (with R92 P4): from rest, a full clockwise cycle makes `qdec.process` return `CW` once and then `NONE`; a full
counter-clockwise cycle `CCW` once and then `NONE`. -/
def Obligations.FullCycleReturnsItsDirectionOnce : Prop :=
  ∀ (e : EncId) (s : State), s.params.qtable = defaultQTable → 2 ≤ s.params.accW → s.enc[e] = { decodeState := .START, acc := 0 } →
    (∃ t u v, runUpdates e [(true, false), (true, true), (false, true), (false, false)] s = .next t ∧
      drain e t = .next u ∧ drain e u = .next v ∧
      u.out.responses = s.out.responses ++ [1#16] ∧ v.out.responses = s.out.responses ++ [1#16, 0#16]) ∧
    (∃ t u v, runUpdates e [(false, true), (true, true), (true, false), (false, false)] s = .next t ∧
      drain e t = .next u ∧ drain e u = .next v ∧
      u.out.responses = s.out.responses ++ [2#16] ∧ v.out.responses = s.out.responses ++ [2#16, 0#16])

/-- R97, R92: the default table has the properties of R92, and with any table that has them, on any sequence of samples from
rest, an accumulator that has gone up was fed the samples 01, 11, 10, 00 in that order, one that has gone down 10, 11, 01,
00. That R92's "full electrical cycle" is this one for every table is the model's reading (notes/assumptions/30.md). -/
def Obligations.CountNeedsAFullCycle : Prop :=
  defaultQTable.Wf ∧
  ∀ (e : EncId) (l : List (Bool × Bool)) (s t : State), s.params.qtable.Wf →
    s.enc[e] = { decodeState := .START, acc := 0 } → runUpdates e l s = .next t →
    (0 < t.enc[e].acc → [(true, false), (true, true), (false, true), (false, false)].Sublist l) ∧
    (t.enc[e].acc < 0 → [(false, true), (true, true), (true, false), (false, false)].Sublist l)

/-- R101: with the default table, exchanging `pinA` and `pinB` on every update mirrors the decoder: the state with the roles
of the directions exchanged, the accumulator negated. -/
def Obligations.ExchangedContactsMirrorTheDecoder : Prop :=
  ∀ (e : EncId) (l : List (Bool × Bool)) (s s' t : State), s.params.qtable = defaultQTable →
    s'.params.qtable = defaultQTable → s'.params.accW = s.params.accW →
    s'.enc[e].decodeState = s.enc[e].decodeState.mirror → s'.enc[e].acc = -s.enc[e].acc →
    runUpdates e l s = .next t →
    ∃ t', runUpdates e (l.map Prod.swap) s' = .next t' ∧
      t'.enc[e].decodeState = t.enc[e].decodeState.mirror ∧ t'.enc[e].acc = -t.enc[e].acc

/-! ## The analog classifier -/

/-- R111: the smoothing step of two `ADC_W`-bit operands is the exact floor division, it fits that width, and lies between its
two operands, for every `ADC_W`. -/
def Obligations.SmoothingStaysBetweenItsOperands : Prop :=
  ∀ (adcW : Nat) (raw prev : Sample), SampleFits adcW raw → SampleFits adcW prev →
    (smoothStep raw prev).toNat = (raw.toNat + 9 * prev.toNat) / 10 ∧
    raw.toNat + 9 * prev.toNat ≤ 10 * (2 ^ adcW - 1) ∧ SampleFits adcW (smoothStep raw prev) ∧
    min raw.toNat prev.toNat ≤ (smoothStep raw prev).toNat ∧
    (smoothStep raw prev).toNat ≤ max raw.toNat prev.toNat

/-- R112, R122: a pass is stable exactly when `-30 <= raw - smoothedPrev <= 39`, and then the estimate is within
`[-27, 36]` of the conversion result, every value in that range occurring, with the default `ADC_W` = 10 already. -/
def Obligations.StableExactlyOnSmallSteps : Prop :=
  (∀ raw prev : Sample,
    (stableFlag (smoothStep raw prev) prev = true ↔
      -30 ≤ (raw.toNat : Int) - prev.toNat ∧ (raw.toNat : Int) - prev.toNat ≤ 39) ∧
    (stableFlag (smoothStep raw prev) prev = true →
      -27 ≤ (raw.toNat : Int) - (smoothStep raw prev).toNat ∧ (raw.toNat : Int) - (smoothStep raw prev).toNat ≤ 36)) ∧
  ∀ x : Int, -27 ≤ x → x ≤ 36 → ∃ raw prev : Sample, SampleFits 10 raw ∧ SampleFits 10 prev ∧
    stableFlag (smoothStep raw prev) prev = true ∧ (raw.toNat : Int) - (smoothStep raw prev).toNat = x

/-- R112: `abc.sample` takes one conversion result, moves the filter one step, sets `stable`, returns the estimate, and
changes nothing else. With no result there it waits, with no register of the filter changed, and does the same when a
result has come: that it waits so is the model's choice (notes/assumptions/9.md). -/
def Obligations.AbcSampleFiltersOneConversion : Prop :=
  (∀ (adcW : Nat) (d : Word), decode adcW 0x2100#16 d = .ok .abcSample) ∧
  (∀ (s : State) (raw : Sample) (rest : List Sample), s.env.adc = raw :: rest →
    ∃ new : Sample, new.toNat = (raw.toNat + 9 * s.abc.smoothed.toNat) / 10 ∧
    exec .abcSample s = .next { s with
      abc := { s.abc with
        smoothed := new, smoothedPrev := s.abc.smoothed
        stable := decide (((new.toNat : Int) - s.abc.smoothed.toNat).natAbs ≤ 3) }
      env := { s.env with adc := rest }
      out := { s.out with responses := s.out.responses ++ [new] }
      prog := { s.prog with micro := .idle } }) ∧
  (∀ s : State, s.env.adc = [] → exec .abcSample s = .next { s with prog := { s.prog with micro := .sampleWait } }) ∧
  ∀ s : State, s.nextTurn = .fg → s.fgMayStep = true → s.straps.seqEn = .host → s.prog.micro = .sampleWait →
    s.env.adc ≠ [] → step s = exec .abcSample s.popTurn

/-- R113, R116: the first pass of `abc.poll`. From `smoothed`, or `SMOOTH_INIT` with `ABC_REINIT`, it ends with `NONE` at the
sentinel, ends with the classification of the estimate when that is stable, and goes on sampling when not. The last
clause is the model's choice and no rule of the spec: with no conversion result there, `abc.poll` is under way with the
estimate reloaded and no pass taken (notes/assumptions/9.md). -/
def Obligations.AbcPollTakesItsFirstPass : Prop :=
  (∀ (adcW : Nat) (d : Word), decode adcW 0x2000#16 d = .ok .abcPoll) ∧
  ∀ (s : State) (start : Sample),
    (start = if s.params.abcReinit then s.params.smoothInit else s.abc.smoothed) →
    (∀ (raw : Sample) (rest : List Sample), s.env.adc = raw :: rest → s.params.floatSentinel = some raw →
      exec .abcPoll s = .next { s with
        abc := { s.abc with smoothed := start, abcState := .ABC_IDLE }
        env := { s.env with adc := rest }
        out := { s.out with responses := s.out.responses ++ [0xFFFF#16] } }) ∧
    (∀ (raw : Sample) (rest : List Sample), s.env.adc = raw :: rest → s.params.floatSentinel ≠ some raw →
      s.abc.calibrated s.params.nSw = true → stableFlag (smoothStep raw start) start = true →
      exec .abcPoll s = .next { s with
        abc := { s.abc with
          smoothed := smoothStep raw start, smoothedPrev := start, stable := true, abcState := .ABC_IDLE }
        env := { s.env with adc := rest }
        out := { s.out with
          responses := s.out.responses ++ [(s.abc.classify s.params.nSw (smoothStep raw start)).idx.signExtend 16] } }) ∧
    (∀ (raw : Sample) (rest : List Sample), s.env.adc = raw :: rest → s.params.floatSentinel ≠ some raw →
      stableFlag (smoothStep raw start) start = false →
      exec .abcPoll s = .next { s with
        abc := { s.abc with
          smoothed := smoothStep raw start, smoothedPrev := start, stable := false, abcState := .ABC_SAMPLING }
        env := { s.env with adc := rest } }) ∧
    (s.env.adc = [] →
      exec .abcPoll s = .next { s with abc := { s.abc with smoothed := start, abcState := .ABC_SAMPLING } })

/-- R124: `abc.poll` as a function of the conversion results it consumes, with the host driving and no other agent stepping.
When none is the sentinel and the step condition fails on every pass but the last, the block ends the poll after those
passes with `smoothed` the fold of the smoothing step and `smoothedPrev` that fold without the last result, returns the
classification, and leaves every other register. When the condition fails on every pass and the next result is the
sentinel, it ends the poll there with `NONE` and `smoothed` the fold of the passes. -/
def Obligations.PollRunsToItsStableEstimate : Prop :=
  ∀ (s : State) (start : Sample) (raws more : List Sample),
    (start = if s.params.abcReinit then s.params.smoothInit else s.abc.smoothed) →
    (∀ r ∈ raws, s.params.floatSentinel ≠ some r) → s.fgMayStep = true → s.straps.seqEn = .host → s.prog.micro = .idle →
    (s.env.adc = raws ++ more → StabilisesOn start raws → s.abc.calibrated s.params.nSw = true →
      s.turns = List.replicate (raws.length - 1) .fg →
      andThen (exec .abcPoll s) (core.run (raws.length - 1)) = .next { s with
        turns := []
        abc := { s.abc with
          smoothed := filterRun start raws, smoothedPrev := filterRun start raws.dropLast, stable := true
          abcState := .ABC_IDLE }
        env := { s.env with adc := more }
        out := { s.out with responses := s.out.responses ++
          [(s.abc.classify s.params.nSw (filterRun start raws)).idx.signExtend 16] } }) ∧
    ∀ sentinel : Sample, s.params.floatSentinel = some sentinel → s.env.adc = raws ++ sentinel :: more →
      NeverStable start raws → s.turns = List.replicate raws.length .fg →
      andThen (exec .abcPoll s) (core.run raws.length) = .next { s with
        turns := []
        abc := { s.abc with
          smoothed := filterRun start raws
          smoothedPrev := if raws = [] then s.abc.smoothedPrev else filterRun start raws.dropLast
          stable := if raws = [] then s.abc.stable else false
          abcState := .ABC_IDLE }
        env := { s.env with adc := more }
        out := { s.out with responses := s.out.responses ++ [0xFFFF#16] } }

/-- R114: with the table loaded, `abc.classify v` returns `NONE` above the idle threshold, else the lowest index whose window
holds `v`, else `NONE`, and changes nothing else; with the table not loaded it sets `F_CAL` and returns `NONE`. -/
def Obligations.ClassifyReturnsTheLowestMatch : Prop :=
  (∀ (adcW : Nat) (v : Word), v.toNat < 2 ^ adcW → decode adcW 0x2200#16 v = .ok (.abcClassify v)) ∧
  (∀ (v : Word) (s : State), v.toNat < 2 ^ s.params.adcW →
    (s.abc.wrValid = false ∨ ∃ i : Button, i.val < s.params.nSw ∧ s.abc.calValid[i] = false) →
    exec (.abcClassify v) s = .next { s with
      sys := { s.sys with fault := s.sys.fault ||| 0b010#3 }
      out := { s.out with responses := s.out.responses ++ [0xFFFF#16] } }) ∧
  ∀ (v : Word) (s : State), v.toNat < 2 ^ s.params.adcW → s.abc.wrValid = true →
    (∀ i : Button, i.val < s.params.nSw → s.abc.calValid[i] = true) →
    ∃ r : Word, exec (.abcClassify v) s = .next { s with out := { s.out with responses := s.out.responses ++ [r] } } ∧
      (s.abc.cal[0].toNat + s.abc.wiggleRoom.toNat < v.toNat → r = 0xFFFF#16) ∧
      (¬s.abc.cal[0].toNat + s.abc.wiggleRoom.toNat < v.toNat →
        (∀ i : Button, i.val < s.params.nSw → ((v.toNat : Int) - s.abc.cal[i].toNat).natAbs < s.abc.wiggleRoom.toNat →
          (∀ j : Button, j < i → ¬((v.toNat : Int) - s.abc.cal[j].toNat).natAbs < s.abc.wiggleRoom.toNat) →
          r = BitVec.ofNat 16 i.val) ∧
        ((∀ i : Button, i.val < s.params.nSw → ¬((v.toNat : Int) - s.abc.cal[i].toNat).natAbs < s.abc.wiggleRoom.toNat) →
          r = 0xFFFF#16))

/-- R115 (under the table invariant of R121): a value is classified as `i` exactly when it lies in the window of entry `i`,
the `2 * WIGGLE_ROOM - 1` integers around `CAL[i]`, for every `i` in `[0, N_SW)` with 0 included; outside every window it is `NONE`. -/
def Obligations.WindowsDecideTheButton : Prop :=
  ∀ (a : AbcRegs) (n : Nat) (v : Sample), a.calibrated n = true → a.Separated n →
    (∀ i : Button, i.val < n → ((a.classify n v).idx = BitVec.ofNat 8 i.val ↔
      (a.cal[i].toNat : Int) - a.wiggleRoom.toNat + 1 ≤ v.toNat ∧
      (v.toNat : Int) ≤ a.cal[i].toNat + a.wiggleRoom.toNat - 1)) ∧
    ((∀ i : Button, i.val < n → ¬((a.cal[i].toNat : Int) - a.wiggleRoom.toNat < v.toNat ∧
        (v.toNat : Int) < a.cal[i].toNat + a.wiggleRoom.toNat)) → (a.classify n v).idx = 0xFF#8)

/-- R118, R246: a classification asked before the tolerance and every entry are loaded returns `NONE`, sets `F_CAL`, reads no
table entry and changes nothing else: `Classify` itself, from whatever operation, and so at the end of `abc.poll`. -/
def Obligations.UncalibratedClassificationSetsFault : Prop :=
  ∀ s : State, (s.abc.wrValid = false ∨ ∃ i : Button, i.val < s.params.nSw ∧ s.abc.calValid[i] = false) →
    (∀ v : Sample, s.classifyRespond v = { s with
      sys := { s.sys with fault := s.sys.fault ||| 0b010#3 }
      out := { s.out with responses := s.out.responses ++ [0xFFFF#16] } }) ∧
    ∀ (raw start : Sample) (rest : List Sample), s.env.adc = raw :: rest → s.params.floatSentinel ≠ some raw →
      (start = if s.params.abcReinit then s.params.smoothInit else s.abc.smoothed) →
      stableFlag (smoothStep raw start) start = true →
      exec .abcPoll s = .next { s with
        abc := { s.abc with
          smoothed := smoothStep raw start, smoothedPrev := start, stable := true, abcState := .ABC_IDLE }
        env := { s.env with adc := rest }
        sys := { s.sys with fault := s.sys.fault ||| 0b010#3 }
        out := { s.out with responses := s.out.responses ++ [0xFFFF#16] } }

/-- R117: `abc.settle` is two micro-steps that write `abcState` and nothing else. -/
def Obligations.SettleIsTwoMicroSteps : Prop :=
  (∀ (adcW : Nat) (d : Word), decode adcW 0x2300#16 d = .ok .abcSettle) ∧
  (∀ s : State, exec .abcSettle s = .next { s with abc := { s.abc with abcState := .ABC_SETTLING } }) ∧
  ∀ s : State, s.nextTurn = .fg → s.fgMayStep = true → s.straps.seqEn = .host → s.prog.micro = .idle →
    s.abc.abcState = .ABC_SETTLING →
    step s = .next { s with turns := s.comingTurns.tail, abc := { s.abc with abcState := .ABC_IDLE } }

/-- R119: `abc.calload i, v` writes entry `i` and its valid bit and nothing else, and checks nothing about the value; with
`i >= N_SW` it sets `F_CONTRACT` and nothing else. -/
def Obligations.CalloadWritesOneEntry : Prop :=
  ∀ (j : BitVec 5) (v : Word) (s : State), v.toNat < 2 ^ s.params.adcW →
    decode s.params.adcW (0x2400#16 ||| j.setWidth 16) v = .ok (.abcCalload j v) ∧
    (s.params.nSw ≤ j.toNat →
      exec (.abcCalload j v) s = .next { s with sys := { s.sys with fault := s.sys.fault ||| 0b100#3 } }) ∧
    ∀ i : Button, j.toNat = i.val → i.val < s.params.nSw →
      ∃ t, exec (.abcCalload j v) s = .next t ∧
        t.abc.cal[i] = v ∧ t.abc.calValid[i] = true ∧
        (∀ i' : Button, i' ≠ i → t.abc.cal[i'] = s.abc.cal[i'] ∧ t.abc.calValid[i'] = s.abc.calValid[i']) ∧
        t = { s with abc := { s.abc with cal := t.abc.cal, calValid := t.abc.calValid } }

/-- R120: `abc.wrload v` writes the tolerance and its valid bit and nothing else; with tolerance 0 every classification
returns `NONE`. -/
def Obligations.WrloadWritesTheTolerance : Prop :=
  (∀ (adcW : Nat) (v : Word), v.toNat < 2 ^ adcW → decode adcW 0x2500#16 v = .ok (.abcWrload v)) ∧
  (∀ (v : Word) (s : State), v.toNat < 2 ^ s.params.adcW →
    exec (.abcWrload v) s = .next { s with abc := { s.abc with wiggleRoom := v, wrValid := true } }) ∧
  ∀ (a : AbcRegs) (n : Nat) (v : Sample), a.wiggleRoom = 0 → (a.classify n v).idx = 0xFF#8

/-! ## The port expander -/

/-- R142: `px.init c` arms an acknowledging chip and forgets its pending changes; a chip that does not acknowledge is logged,
announced and left unconfigured; nothing else changes. -/
def Obligations.PxInitArmsOrLogs : Prop :=
  ∀ (c : Chip), (∀ adcW : Nat, decode adcW (0x3000#16 ||| BitVec.ofNat 16 c.val) 0#16 = .ok (.pxInit c)) ∧
    (∀ s : State, s.env.ack[c] = true → exec (.pxInit c) s = .next { s with
      chip := s.chip.set c { s.chip[c] with pxConfigured := true, pend := 0, irqLatch := false } }) ∧
    ∀ s : State, s.env.ack[c] = false → exec (.pxInit c) s = .next { s with
      chip := s.chip.set c { s.chip[c] with pxConfigured := false, pxInitFail := true }
      out := { s.out with events := s.out.events ++ [.INIT_FAIL c] } }

/-- R147, R252: where the entry of handler `c` is enabled it clears the latch, moves the handler to `FETCH`, saves nothing and
changes nothing else. -/
def Obligations.HandlerEntrySavesNothing : Prop :=
  ∀ (c : Chip) (s : State), s.chip[c].isrState = .IDLE → s.chip[c].irqLatch = true →
    s.chip[c].pxConfigured = true → s.sys.irqEnable = true → s.straps.acqMode = .EXPANDER →
    exec (.pxIsr c) s = .next { s with
      chip := s.chip.set c { s.chip[c] with irqLatch := false, isrState := .FETCH } }

/-- R148, R253: in `FETCH` the handler returns when nothing is pending, restoring nothing; else it takes one pending pin,
clears its bit only, and goes to `READ`. Every pending pin is the one taken for some choice of the chip. That the handler
returns with `curPin` and `curLevel` as they were is the model's choice (notes/assumptions/31.md). -/
def Obligations.FetchTakesAnyPendingPin : Prop :=
  ∀ (c : Chip) (s : State), s.chip[c].isrState = .FETCH →
    (s.chip[c].pend = 0 → exec (.pxIsr c) s = .next { s with
      chip := s.chip.set c { s.chip[c] with isrState := .IDLE } }) ∧
    (s.chip[c].pend ≠ 0 → ∃ p : Pin, s.chip[c].pend.getLsbD p.val = true ∧
      exec (.pxIsr c) s = .next { s with
        chip := s.chip.set c { s.chip[c] with
          pend := s.chip[c].pend &&& ~~~(1#16 <<< p.val), curPin := p, isrState := .READ } }) ∧
    ∀ p : Pin, s.chip[c].pend.getLsbD p.val = true → s.report[c] = p →
      exec (.pxIsr c) s = .next { s with
        chip := s.chip.set c { s.chip[c] with
          pend := s.chip[c].pend &&& ~~~(1#16 <<< p.val), curPin := p, isrState := .READ } }

/-- R149, R150: in `READ` the live level of the fetched pin is routed by the pin map: a pressed switch overwrites
`pendingButton`, a released one does nothing, an encoder contact's level is kept for `PARTNER`, an unused pin is dropped.
That `curPin` and `curLevel` otherwise keep their values is the model's choice (notes/assumptions/31.md). -/
def Obligations.ReadRoutesThePin : Prop :=
  ∀ (c : Chip) (s : State), s.chip[c].isrState = .READ →
    (∀ k : Button, s.params.pinMap.kind c s.chip[c].curPin = .SWITCH k →
      s.env.level[c].getLsbD s.chip[c].curPin.val = s.params.pressedLevel →
      exec (.pxIsr c) s = .next { s with
        pendingButton := BitVec.ofNat 8 k.val, chip := s.chip.set c { s.chip[c] with isrState := .FETCH } }) ∧
    (∀ k : Button, s.params.pinMap.kind c s.chip[c].curPin = .SWITCH k →
      s.env.level[c].getLsbD s.chip[c].curPin.val ≠ s.params.pressedLevel →
      exec (.pxIsr c) s = .next { s with chip := s.chip.set c { s.chip[c] with isrState := .FETCH } }) ∧
    (∀ e : EncId, s.params.pinMap.kind c s.chip[c].curPin = .ENC_A e ∨
        s.params.pinMap.kind c s.chip[c].curPin = .ENC_B e →
      exec (.pxIsr c) s = .next { s with
        chip := s.chip.set c { s.chip[c] with
          curLevel := s.env.level[c].getLsbD s.chip[c].curPin.val, isrState := .PARTNER } }) ∧
    (s.params.pinMap.kind c s.chip[c].curPin = .UNUSED →
      exec (.pxIsr c) s = .next { s with chip := s.chip.set c { s.chip[c] with isrState := .FETCH } })

/-- R151: in `PARTNER` the decoder of the contact's encoder is updated with the two levels in the orientation of the wiring
strap, exactly as `qdec.update` would, and the handler goes to `FETCH`. That `curPin` and `curLevel` keep their values then is
the model's choice (notes/assumptions/31.md). -/
def Obligations.PartnerFeedsTheDecoder : Prop :=
  ∀ (c : Chip) (s : State) (e : EncId) (q : Pin) (la lb : Bool), s.params.pinMap.Wf s.params.nSw →
    s.chip[c].isrState = .PARTNER →
    (s.params.pinMap.kind c s.chip[c].curPin = .ENC_A e ∧ s.params.pinMap.kind c q = .ENC_B e ∧
        la = s.chip[c].curLevel ∧ lb = s.env.level[c].getLsbD q.val ∨
      s.params.pinMap.kind c s.chip[c].curPin = .ENC_B e ∧ s.params.pinMap.kind c q = .ENC_A e ∧
        la = s.env.level[c].getLsbD q.val ∧ lb = s.chip[c].curLevel) →
    ∃ t u, exec (.qdecUpdate e (if s.straps.encWiring = .NORMAL then la else lb)
        (if s.straps.encWiring = .NORMAL then lb else la)) s = .next t ∧
      exec (.pxIsr c) s = .next u ∧
      u = { t with chip := s.chip.set c { s.chip[c] with isrState := .FETCH } }

/-- R254, R252, R253: a step of handler `c` writes `pend`, `irqLatch`, `isrState`, `curPin`, `curLevel` of its chip,
`pendingButton` and decoders, and nothing else of the block. -/
def Obligations.HandlerWritesOnlyItsRegisters : Prop :=
  ∀ (c : Chip) (s t : State), exec (.pxIsr c) s = .next t →
    t = { s with enc := t.enc, pendingButton := t.pendingButton, chip := t.chip } ∧
    (∀ c', c' ≠ c → t.chip[c'] = s.chip[c']) ∧
    t.chip[c].pxConfigured = s.chip[c].pxConfigured ∧ t.chip[c].pxInitFail = s.chip[c].pxInitFail

/-- R153 (with R52): masked, `px.take` returns `pendingButton` and sets it to `NONE` in one step; unmasked it is two
micro-steps, and a button written between them is erased. That `fgTmp` keeps its value then is the model's choice
(notes/assumptions/31.md). -/
def Obligations.PxTakeReadsAndClears : Prop :=
  (∀ (adcW : Nat) (d : Word), decode adcW 0x3200#16 d = .ok .pxTake) ∧
  (∀ s : State, s.sys.irqEnable = false → exec .pxTake s = .next { s with
    pendingButton := 0xFF#8
    out := { s.out with responses := s.out.responses ++ [s.pendingButton.signExtend 16] } }) ∧
  (∀ s : State, s.sys.irqEnable = true → exec .pxTake s = .next { s with
    sys := { s.sys with fgTmp := s.pendingButton.toInt }
    prog := { s.prog with micro := .takeClear } }) ∧
  ∀ (s : State) (k : Idx), s.nextTurn = .fg → s.fgMayStep = true → s.straps.seqEn = .host →
    s.prog.micro = .takeClear → s.sys.fgTmp = k.toInt →
    step s = .next { s with
      turns := s.comingTurns.tail
      pendingButton := 0xFF#8
      out := { s.out with responses := s.out.responses ++ [k.signExtend 16] }
      prog := { s.prog with micro := .idle } }

/-- R143, R144, R148: a change that is pending while its handler is idle has its request latched: no step strands it. -/
def Obligations.PendingChangesStayLatched : Prop :=
  ∀ s t : State, s.ChangesLatched → step s = .next t → t.ChangesLatched

/-! ## The menu -/

/-- R185, R186, R191 to R204 (default `ACTION_MAP`): each of the fourteen direct actions calls its collaborator once, after
promoting an inactive menu and showing it, and changes nothing else. -/
def Obligations.DirectActionsPromoteAndCall : Prop :=
  ∀ (i : Instr) (a : BitVec 5) (s : State),
    (i, a) ∈ [(Instr.menuPress2, 2#5), (.menuPress3, 3), (.menuPress5, 5), (.menuPress6, 6), (.menuPress7, 7),
      (.menuPress8, 8), (.menuPress9, 9), (.menuPress10, 10), (.menuPress11, 11), (.menuPress12, 12),
      (.menuPress13, 13), (.menuPress14, 14), (.menuPress15, 15), (.menuPress16, 16)] →
    s.params.actionMap = defaultActionMap → s.params.selectIndex = 0 → a.toNat < s.params.nSw →
    s.menu.flowActive = false →
    (∀ (adcW : Nat) (d : Word), decode adcW (0x4000#16 ||| a.setWidth 16) d = .ok i) ∧
    (s.menu.menuStatus = .noMenusActive → exec i s = .next { s with
      menu := { s.menu with menuStatus := .primaryMenuActive }
      out := { s.out with
        events := s.out.events ++ [.SHOW_MENU s.menu.mainMenuIndex .primaryMenuActive, .ACTION a] } }) ∧
    (s.menu.menuStatus ≠ .noMenusActive → exec i s = .next { s with
      out := { s.out with events := s.out.events ++ [.ACTION a] } })

/-- R186 (any `ACTION_MAP`): `menu.press k` runs the rule of the action that the map gives `k`: a direct action of the map is
announced once by its identifier, after the promotion of an inactive menu; so does the word of an index from 18 on, which
has no row of the table, where `N_SW` takes it in. That last clause is the model's reading of R75 and R183, which send those
words to the contract check and not to the reserved ones, for an `N_SW` above 18 (notes/assumptions/14.md); what the trace
port shows for such a word is left open here. -/
def Obligations.PressFollowsTheActionMap : Prop :=
  (∀ (k : Button) (i : Instr) (a : Machine.Action) (s : State), pressOf k.val = some i → k.val < s.params.nSw →
    s.params.actionMap[k] = a → a ∉ [Machine.Action.SELECT, .MENU_UP, .MENU_DOWN, .MAP_FLOW] → s.menu.flowActive = false →
    (s.menu.menuStatus = .noMenusActive → k ≠ s.params.selectIndex → exec i s = .next { s with
      menu := { s.menu with menuStatus := .primaryMenuActive }
      out := { s.out with
        events := s.out.events ++ [.SHOW_MENU s.menu.mainMenuIndex .primaryMenuActive, .ACTION a.id] } }) ∧
    (s.menu.menuStatus ≠ .noMenusActive → exec i s = .next { s with
      out := { s.out with events := s.out.events ++ [.ACTION a.id] } })) ∧
  ∀ (k : Button) (a : Machine.Action) (s : State) (d : Word), 18 ≤ k.val → k.val < s.params.nSw →
    s.params.actionMap[k] = a → a ∉ [Machine.Action.SELECT, .MENU_UP, .MENU_DOWN, .MAP_FLOW] →
    s.menu.flowActive = false → s.Accepting (BitVec.ofNat 16 (0x4000 + k.val)) d →
    ∃ tr,
      (s.menu.menuStatus = .noMenusActive → k ≠ s.params.selectIndex → step s = .next { s.accepted with
        menu := { s.menu with menuStatus := .primaryMenuActive }
        out := { s.out with
          events := s.out.events ++ [.SHOW_MENU s.menu.mainMenuIndex .primaryMenuActive, .ACTION a.id], trace := tr } }) ∧
      (s.menu.menuStatus ≠ .noMenusActive → step s = .next { s.accepted with
        out := { s.out with events := s.out.events ++ [.ACTION a.id], trace := tr } })

/-- R184: `menu.press SELECT_INDEX` with no menu active gives the notice, sets both indices to 0 and stops there. -/
def Obligations.SelectWithoutMenuIsNoticed : Prop :=
  (∀ (adcW : Nat) (d : Word), decode adcW 0x4000#16 d = .ok .menuPress0) ∧ pressOf 0 = some .menuPress0 ∧
  ∀ (k : Button) (i : Instr) (s : State), pressOf k.val = some i → k.val < s.params.nSw → s.params.selectIndex = k →
    s.menu.flowActive = false → s.menu.menuStatus = .noMenusActive →
    exec i s = .next { s with
      menu := { s.menu with menuStatus := .noMenusActive, mainMenuIndex := 0, secondaryMenuIndex := 0 }
      out := { s.out with events := s.out.events ++ [.NOTICE_NO_MENU] } }

/-- R187: select (index 0 in the default `ACTION_MAP`) in `PRIMARY_MENU_ACTIVE` calls the menu function, stores what it returns unchecked,
moves to `SECONDARY_MENU_ACTIVE` with no secondary index; while no return value is there it waits with the call made, and
completes when the environment supplies one. That it waits in one pending micro-step is the model's choice
(notes/assumptions/10.md). -/
def Obligations.SelectCallsTheMenuFunction : Prop :=
  (∀ (k : Button) (i : Instr) (s : State) (r : Idx) (rest : List Idx), pressOf k.val = some i → k.val < s.params.nSw →
    s.params.actionMap[k] = .SELECT → s.menu.flowActive = false →
    s.menu.menuStatus = .primaryMenuActive → s.env.ret = r :: rest →
    exec i s = .next { s with
      menu := { s.menu with menuStatus := .secondaryMenuActive, secondaryMenuIndex := 0xFF#8, secondaryChoice := r }
      env := { s.env with ret := rest }
      out := { s.out with events := s.out.events ++
        [.CALL_MENUFN s.menu.mainMenuIndex, .SHOW_MENU s.menu.mainMenuIndex .secondaryMenuActive] }
      prog := { s.prog with micro := .idle } }) ∧
  (∀ (k : Button) (i : Instr) (s : State), pressOf k.val = some i → k.val < s.params.nSw →
    s.params.actionMap[k] = .SELECT → s.menu.flowActive = false →
    s.menu.menuStatus = .primaryMenuActive → s.env.ret = [] →
    exec i s = .next { s with
      out := { s.out with events := s.out.events ++ [.CALL_MENUFN s.menu.mainMenuIndex] }
      prog := { s.prog with micro := .menuWait } }) ∧
  ∀ (s : State) (r : Idx) (rest : List Idx), s.nextTurn = .fg → s.fgMayStep = true → s.straps.seqEn = .host →
    s.prog.micro = .menuWait → s.env.ret = r :: rest →
    step s = .next { s with
      turns := s.comingTurns.tail
      menu := { s.menu with menuStatus := .secondaryMenuActive, secondaryMenuIndex := 0xFF#8, secondaryChoice := r }
      env := { s.env with ret := rest }
      out := { s.out with events := s.out.events ++ [.SHOW_MENU s.menu.mainMenuIndex .secondaryMenuActive] }
      prog := { s.prog with micro := .idle } }

/-- R188: select (index 0 in the default `ACTION_MAP`) in `SECONDARY_MENU_ACTIVE` collapses to `PRIMARY_MENU_ACTIVE` with
index 0; nothing else changes. -/
def Obligations.SelectCollapsesTheSecondaryMenu : Prop :=
  (∀ (adcW : Nat) (d : Word), decode adcW 0x4000#16 d = .ok .menuPress0) ∧ pressOf 0 = some .menuPress0 ∧
  defaultActionMap[(0 : Button)] = .SELECT ∧
  ∀ (k : Button) (i : Instr) (s : State), pressOf k.val = some i → k.val < s.params.nSw → s.params.actionMap[k] = .SELECT →
    s.menu.flowActive = false → s.menu.menuStatus = .secondaryMenuActive →
    exec i s = .next { s with
      menu := { s.menu with menuStatus := .primaryMenuActive, mainMenuIndex := 0 }
      out := { s.out with events := s.out.events ++ [.SHOW_MENU 0 .primaryMenuActive] } }

/-- R189, R190 (after R185): menu up and menu down (indices 1 and 4 in the default `ACTION_MAP`) move `mainMenuIndex` by one
and wrap at the table bounds, in every menu state, promoting an inactive menu first; they show the menu after the move
and change nothing else. -/
def Obligations.MenuNavigationWraps : Prop :=
  (∀ (adcW : Nat) (d : Word),
    decode adcW 0x4001#16 d = .ok .menuPress1 ∧ decode adcW 0x4004#16 d = .ok .menuPress4) ∧
  (pressOf 1 = some .menuPress1 ∧ defaultActionMap[(1 : Button)] = .MENU_UP ∧
    pressOf 4 = some .menuPress4 ∧ defaultActionMap[(4 : Button)] = .MENU_DOWN) ∧
  ∀ (k : Button) (i : Instr) (s : State), pressOf k.val = some i → k.val < s.params.nSw → s.menu.flowActive = false →
    (s.menu.menuStatus = .noMenusActive → k ≠ s.params.selectIndex) → s.MenuInv →
    ∃ (st : MenuStatus) (up down : Idx) (shown : List Event),
      (s.menu.menuStatus = .noMenusActive →
        st = .primaryMenuActive ∧ shown = [.SHOW_MENU s.menu.mainMenuIndex .primaryMenuActive]) ∧
      (s.menu.menuStatus ≠ .noMenusActive → st = s.menu.menuStatus ∧ shown = []) ∧
      (s.menu.mainMenuIndex.toInt = s.params.nMain - 1 → up.toInt = 0) ∧
      (s.menu.mainMenuIndex.toInt ≠ s.params.nMain - 1 → up.toInt = s.menu.mainMenuIndex.toInt + 1) ∧
      (s.menu.mainMenuIndex.toInt = 0 → down.toInt = s.params.nMain - 1) ∧
      (s.menu.mainMenuIndex.toInt ≠ 0 → down.toInt = s.menu.mainMenuIndex.toInt - 1) ∧
      (s.params.actionMap[k] = .MENU_UP → exec i s = .next { s with
        menu := { s.menu with menuStatus := st, mainMenuIndex := up }
        out := { s.out with events := s.out.events ++ shown ++ [.SHOW_MENU up st] } }) ∧
      (s.params.actionMap[k] = .MENU_DOWN → exec i s = .next { s with
        menu := { s.menu with menuStatus := st, mainMenuIndex := down }
        out := { s.out with events := s.out.events ++ shown ++ [.SHOW_MENU down st] } })

/-- R205 (after R185): the map-flow button (index 17 in the default `ACTION_MAP`) opens the extended flow where the build has
it, else calls its table entry; either after promoting an inactive menu; nothing else changes. -/
def Obligations.MapFlowOpensTheFlow : Prop :=
  (∀ (adcW : Nat) (d : Word), decode adcW 0x4011#16 d = .ok .menuPress17) ∧ pressOf 17 = some .menuPress17 ∧
  defaultActionMap[(17 : Button)] = .MAP_FLOW ∧
  ∀ (k : Button) (i : Instr) (s : State), pressOf k.val = some i → k.val < s.params.nSw →
    s.params.actionMap[k] = .MAP_FLOW →
    s.menu.flowActive = false → (s.menu.menuStatus = .noMenusActive → k ≠ s.params.selectIndex) →
    ∃ (st : MenuStatus) (shown : List Event),
      (s.menu.menuStatus = .noMenusActive →
        st = .primaryMenuActive ∧ shown = [.SHOW_MENU s.menu.mainMenuIndex .primaryMenuActive]) ∧
      (s.menu.menuStatus ≠ .noMenusActive → st = s.menu.menuStatus ∧ shown = []) ∧
      (s.straps.sdFlow = .PRESENT → exec i s = .next { s with
        menu := { s.menu with menuStatus := st, flowActive := true }
        out := { s.out with events := s.out.events ++ shown ++ [.FLOW_OPEN] } }) ∧
      (s.straps.sdFlow = .ABSENT → exec i s = .next { s with
        menu := { s.menu with menuStatus := st }
        out := { s.out with events := s.out.events ++ shown ++ [.ACTION 17] } })

/-- R206: during the flow `menu.flowkey` closes it on its trigger and hands every other key on, and nothing else changes;
outside the flow or with an index outside `[0, N_SW)` it is refused with `F_CONTRACT`. -/
def Obligations.FlowkeyRoutesOrCloses : Prop :=
  ∀ (k : Idx) (s : State),
    decode s.params.adcW (0x4100#16 ||| k.setWidth 16) 0#16 = .ok (.menuFlowkey k) ∧
    (s.menu.flowActive = true → k.toNat < s.params.nSw → k.toNat = s.params.flowTriggerIndex.val →
      exec (.menuFlowkey k) s = .next { s with
        menu := { s.menu with flowActive := false }
        out := { s.out with events := s.out.events ++ [.FLOW_CLOSE] } }) ∧
    (s.menu.flowActive = true → k.toNat < s.params.nSw → k.toNat ≠ s.params.flowTriggerIndex.val →
      exec (.menuFlowkey k) s = .next { s with
        out := { s.out with events := s.out.events ++ [.FLOW_KEY k] } }) ∧
    (s.menu.flowActive = false ∨ s.params.nSw ≤ k.toNat →
      exec (.menuFlowkey k) s = .next { s with sys := { s.sys with fault := s.sys.fault ||| 0b100#3 } })

/-- R21, R210: every step keeps the invariant of the menu registers. -/
def Obligations.MenuInvariantIsKept : Prop :=
  ∀ s t : State, s.MenuInv → step s = .next t → t.MenuInv

/-- R208: once a menu is active no step but reset makes `menuStatus` `NO_MENUS_ACTIVE` again. -/
def Obligations.MenusNeverDeactivate : Prop :=
  ∀ s t : State, step s = .next t → s.nextTurn ≠ .env .reset → s.menu.menuStatus ≠ .noMenusActive →
    t.menu.menuStatus ≠ .noMenusActive

/-- R206, R81: no step but reset clears `flowActive` unless it starts and carries out `menu.flowkey` of
`FLOW_TRIGGER_INDEX`, whose word is the one it puts on the trace port, with `FLOW_CLOSE` its one event. -/
def Obligations.FlowEndsOnlyByItsTrigger : Prop :=
  ∀ s t : State, step s = .next t → s.nextTurn ≠ .env .reset → s.menu.flowActive = true →
    t.menu.flowActive = false →
    t.out.events = s.out.events ++ [.FLOW_CLOSE] ∧
    t.out.trace = s.out.trace ++ [(encode (.menuFlowkey (BitVec.ofNat 8 s.params.flowTriggerIndex.val))).1]

/-! ## The sequencer -/

/-- R272, R231: the boot sequence, left to itself, loads the whole calibration table and the tolerance from the store; in
`ANALOG` mode it ends there, in `PH_POLL`, with interrupts and chips as they were; in `EXPANDER` mode it goes on with
`px.init 0`, `px.init 1` and `sei`, each chip armed or logged and announced by its acknowledge, and ends in `PH_TAKE`.
Two parts are the model's choice and no rule of the spec: the numbers of foreground steps, the change of phase happening
in the last operation's own step (notes/assumptions/18.md), and that the store answers a boot read at once with an
`ADC_W`-bit value that stands in the environment's inputs (notes/assumptions/2.md). -/
def Obligations.SequencerBootLoadsTheCalibration : Prop :=
  ∀ (s : State) (n : Nat), (n = if s.straps.acqMode = .EXPANDER then s.params.nSw + 4 else s.params.nSw + 1) →
    s.SequencerRuns n → s.params.nSw ≤ 32 → (∀ i : Button, SampleFits s.params.adcW s.env.calStore[i]) →
    SampleFits s.params.adcW s.env.wiggleStore → s.sys.fgPhase = .PH_BOOT → s.prog.seqPos = 0 →
    ∃ t, core.run n s = .next t ∧
      (∀ i : Button, i.val < s.params.nSw → t.abc.cal[i] = s.env.calStore[i] ∧ t.abc.calValid[i] = true) ∧
      t.abc.wiggleRoom = s.env.wiggleStore ∧ t.abc.wrValid = true ∧ t.prog.seqPos = 0 ∧
      (s.straps.acqMode = .ANALOG →
        t.sys = { s.sys with fgPhase := .PH_POLL } ∧ t.chip = s.chip ∧ t.out.events = s.out.events) ∧
      (s.straps.acqMode = .EXPANDER →
        t.sys = { s.sys with fgPhase := .PH_TAKE, irqEnable := true } ∧
        (∀ c : Chip,
          (s.env.ack[c] = true → t.chip[c] = { s.chip[c] with pxConfigured := true, pend := 0, irqLatch := false }) ∧
          (s.env.ack[c] = false → t.chip[c] = { s.chip[c] with pxConfigured := false, pxInitFail := true })) ∧
        t.out.events = s.out.events ++
          ((List.finRange 2).filter fun c => !s.env.ack[c]).map fun c => Event.INIT_FAIL c)

/-- R232: the phases `PH_TAKE` and `PH_ENC`, with no other agent stepping, take the pending button into `fgButton`, drain all
four decoders, emit one `ENC_EVENT` for each that has turned, in order, and end in `PH_PRESS` with interrupts enabled. That
this takes 15 foreground steps, the routing of a result, the event and the change of phase happening in the operations'
own last steps, is the model's choice and no rule of the spec (notes/assumptions/18.md). -/
def Obligations.SequencerTakesAndDrains : Prop :=
  ∀ s : State, s.SequencerRuns 15 → s.sys.fgPhase = .PH_TAKE → s.prog.seqPos = 0 → s.prog.seqDir = .noStep →
    ∃ t, core.run 15 s = .next t ∧ t.sys.fgButton = s.pendingButton ∧ t.pendingButton = 0xFF#8 ∧
      (∀ e : EncId, t.enc[e] = { s.enc[e] with acc := 0 }) ∧
      t.out.events = s.out.events ++ ((List.finRange 4).filterMap fun e =>
        if s.enc[e].acc > 0 then some (.ENC_EVENT e .CW)
        else if s.enc[e].acc < 0 then some (.ENC_EVENT e .CCW) else none) ∧
      t.sys.fgPhase = .PH_PRESS ∧ t.prog.seqPos = 0 ∧ t.sys.irqEnable = true

/-- R233: what the phases `PH_POLL` and `PH_SETTLE` do. A pass that does not end `abc.poll`, the first or a later one, leaves
`fgButton` and `fgPhase`; the pass that ends it puts the button it returns into `fgButton` and goes to `PH_SETTLE`, or polls
again on `NONE`. `PH_SETTLE` is the two micro-steps of `abc.settle`, `fgButton` kept, and then `PH_PRESS`.
R232, R234: in `PH_PRESS` the button is dispatched, by `menu.flowkey` during the flow and else by `menu.press`, exactly as that
operation does, its word on the trace port (R81), and the loop starts again with `fgButton` `NONE`; while a select waits for its menu function, `fgButton` and
`fgPhase` stay, and when the function returns the select completes and the loop starts again; with no button nothing is
issued. Three parts are the model's choice and no rule of the spec: a `PH_PRESS` without a button is one foreground step
without an operation, and `fgButton` and `fgPhase` are written in the operation's own last step (notes/assumptions/18.md);
and the word is on the trace port also for a button that is then refused as out of contract (R81 speaks of operations
started: notes/assumptions/17.md). -/
def Obligations.SequencerRoutesTheButton : Prop :=
  ∀ (s : State) (loop : FgPhase), (loop = if s.straps.acqMode = .EXPANDER then .PH_TAKE else .PH_POLL) →
    s.nextTurn = .fg → s.fgMayStep = true → s.straps.seqEn = .sequencer → s.prog.seqPos = 0 →
    (∀ u : State, s.sys.fgPhase = .PH_POLL →
      (s.busy = false ∧ exec .abcPoll s = .next u ∨
        s.prog.micro = .idle ∧ s.abc.abcState = .ABC_SAMPLING ∧ u = s.pollPass) →
      ∃ t, step s = .next t ∧ t.abc = u.abc ∧ t.env = u.env ∧ t.out.responses = u.out.responses ∧ t.prog.seqPos = 0 ∧
        (u.busy = true → t.sys = s.sys) ∧
        ∀ b : Idx, u.busy = false → u.out.responses = s.out.responses ++ [b.signExtend 16] →
          t.sys = { u.sys with fgButton := b, fgPhase := if b = 0xFF#8 then .PH_POLL else .PH_SETTLE }) ∧
    (s.sys.fgPhase = .PH_SETTLE → s.busy = false →
      step s = .next { s with
        turns := s.comingTurns.tail
        abc := { s.abc with abcState := .ABC_SETTLING }
        out := { s.out with trace := s.out.trace ++ [0x2300#16] } }) ∧
    (s.sys.fgPhase = .PH_SETTLE → s.prog.micro = .idle → s.abc.abcState = .ABC_SETTLING →
      ∃ t, step s = .next t ∧ t.abc = { s.abc with abcState := .ABC_IDLE } ∧ t.out = s.out ∧ t.prog.seqPos = 0 ∧
        t.sys = { s.sys with fgPhase := .PH_PRESS }) ∧
    (s.sys.fgPhase = .PH_PRESS → s.busy = false → s.sys.fgButton = 0xFF#8 →
      ∃ t, step s = .next t ∧ t.menu = s.menu ∧ t.out = s.out ∧ t.prog.seqPos = 0 ∧
        t.sys = { s.sys with fgPhase := loop }) ∧
    (∀ (w : Word) (u : State), s.sys.fgPhase = .PH_PRESS → s.busy = false → s.sys.fgButton ≠ 0xFF#8 →
      (s.menu.flowActive = true ∧ exec (.menuFlowkey s.sys.fgButton) s = .next u ∧
          w = (encode (.menuFlowkey s.sys.fgButton)).1 ∨
        s.menu.flowActive = false ∧
          ∃ i, pressOf s.sys.fgButton.toNat = some i ∧ exec i s = .next u ∧ w = (encode i).1 ∨
        s.menu.flowActive = false ∧
          ∃ k : Button, 18 ≤ k.val ∧ s.sys.fgButton = BitVec.ofNat 8 k.val ∧ u = s.menuPress k ∧
            w = BitVec.ofNat 16 (0x4000 + k.val)) →
      ∃ t, step s = .next t ∧ t.menu = u.menu ∧ t.out.events = u.out.events ∧
        t.out.trace = s.out.trace ++ [w] ∧ t.prog.micro = u.prog.micro ∧ t.prog.seqPos = 0 ∧
        t.sys = if u.busy then u.sys else { u.sys with fgButton := 0xFF#8, fgPhase := loop }) ∧
    (∀ (r : Idx) (rest : List Idx), s.sys.fgPhase = .PH_PRESS → s.prog.micro = .menuWait → s.env.ret = r :: rest →
      ∃ t, step s = .next t ∧ t.env.ret = rest ∧ t.prog.micro = .idle ∧
        t.menu = { s.menu with
          menuStatus := .secondaryMenuActive, secondaryMenuIndex := 0xFF#8, secondaryChoice := r } ∧
        t.out.events = s.out.events ++ [.SHOW_MENU s.menu.mainMenuIndex .secondaryMenuActive] ∧
        (s.abc.abcState = .ABC_IDLE → t.prog.seqPos = 0 ∧
          t.sys = { s.sys with fgButton := 0xFF#8, fgPhase := loop })) ∧
    (s.sys.fgPhase = .PH_PRESS → s.prog.micro = .menuWait → s.env.ret = [] →
      step s = .next { s with turns := s.comingTurns.tail })
end

