-- ==== Sys2Proof/Laws/State.lean ====
section
/-! SUPPORT. One lemma per field per update of `State`, true by unfolding once, so that no proof unfolds a record update. -/

namespace Sys2Proof.Machine

/-! `setEnc` -/

@[simp] theorem State.setEnc_enc (e : EncId) (v : EncState) (s : State) : (s.setEnc e v).enc = s.enc.set e v := rfl
@[simp] theorem State.setEnc_abc (e : EncId) (v : EncState) (s : State) : (s.setEnc e v).abc = s.abc := rfl
@[simp] theorem State.setEnc_pendingButton (e : EncId) (v : EncState) (s : State) : (s.setEnc e v).pendingButton = s.pendingButton := rfl
@[simp] theorem State.setEnc_chip (e : EncId) (v : EncState) (s : State) : (s.setEnc e v).chip = s.chip := rfl
@[simp] theorem State.setEnc_menu (e : EncId) (v : EncState) (s : State) : (s.setEnc e v).menu = s.menu := rfl
@[simp] theorem State.setEnc_sys (e : EncId) (v : EncState) (s : State) : (s.setEnc e v).sys = s.sys := rfl
@[simp] theorem State.setEnc_straps (e : EncId) (v : EncState) (s : State) : (s.setEnc e v).straps = s.straps := rfl
@[simp] theorem State.setEnc_params (e : EncId) (v : EncState) (s : State) : (s.setEnc e v).params = s.params := rfl
@[simp] theorem State.setEnc_prog (e : EncId) (v : EncState) (s : State) : (s.setEnc e v).prog = s.prog := rfl
@[simp] theorem State.setEnc_env (e : EncId) (v : EncState) (s : State) : (s.setEnc e v).env = s.env := rfl
@[simp] theorem State.setEnc_out (e : EncId) (v : EncState) (s : State) : (s.setEnc e v).out = s.out := rfl
@[simp] theorem State.setEnc_report (e : EncId) (v : EncState) (s : State) : (s.setEnc e v).report = s.report := rfl
@[simp] theorem State.setEnc_turns (e : EncId) (v : EncState) (s : State) : (s.setEnc e v).turns = s.turns := rfl
@[simp] theorem State.setEnc_turnCycle (e : EncId) (v : EncState) (s : State) : (s.setEnc e v).turnCycle = s.turnCycle := rfl

/-! `setChip` -/

@[simp] theorem State.setChip_enc (c : Chip) (v : ChipRegs) (s : State) : (s.setChip c v).enc = s.enc := rfl
@[simp] theorem State.setChip_abc (c : Chip) (v : ChipRegs) (s : State) : (s.setChip c v).abc = s.abc := rfl
@[simp] theorem State.setChip_pendingButton (c : Chip) (v : ChipRegs) (s : State) : (s.setChip c v).pendingButton = s.pendingButton := rfl
@[simp] theorem State.setChip_chip (c : Chip) (v : ChipRegs) (s : State) : (s.setChip c v).chip = s.chip.set c v := rfl
@[simp] theorem State.setChip_menu (c : Chip) (v : ChipRegs) (s : State) : (s.setChip c v).menu = s.menu := rfl
@[simp] theorem State.setChip_sys (c : Chip) (v : ChipRegs) (s : State) : (s.setChip c v).sys = s.sys := rfl
@[simp] theorem State.setChip_straps (c : Chip) (v : ChipRegs) (s : State) : (s.setChip c v).straps = s.straps := rfl
@[simp] theorem State.setChip_params (c : Chip) (v : ChipRegs) (s : State) : (s.setChip c v).params = s.params := rfl
@[simp] theorem State.setChip_prog (c : Chip) (v : ChipRegs) (s : State) : (s.setChip c v).prog = s.prog := rfl
@[simp] theorem State.setChip_env (c : Chip) (v : ChipRegs) (s : State) : (s.setChip c v).env = s.env := rfl
@[simp] theorem State.setChip_out (c : Chip) (v : ChipRegs) (s : State) : (s.setChip c v).out = s.out := rfl
@[simp] theorem State.setChip_report (c : Chip) (v : ChipRegs) (s : State) : (s.setChip c v).report = s.report := rfl
@[simp] theorem State.setChip_turns (c : Chip) (v : ChipRegs) (s : State) : (s.setChip c v).turns = s.turns := rfl
@[simp] theorem State.setChip_turnCycle (c : Chip) (v : ChipRegs) (s : State) : (s.setChip c v).turnCycle = s.turnCycle := rfl

/-! `setAbc` -/

@[simp] theorem State.setAbc_enc (v : AbcRegs) (s : State) : (s.setAbc v).enc = s.enc := rfl
@[simp] theorem State.setAbc_abc (v : AbcRegs) (s : State) : (s.setAbc v).abc = v := rfl
@[simp] theorem State.setAbc_pendingButton (v : AbcRegs) (s : State) : (s.setAbc v).pendingButton = s.pendingButton := rfl
@[simp] theorem State.setAbc_chip (v : AbcRegs) (s : State) : (s.setAbc v).chip = s.chip := rfl
@[simp] theorem State.setAbc_menu (v : AbcRegs) (s : State) : (s.setAbc v).menu = s.menu := rfl
@[simp] theorem State.setAbc_sys (v : AbcRegs) (s : State) : (s.setAbc v).sys = s.sys := rfl
@[simp] theorem State.setAbc_straps (v : AbcRegs) (s : State) : (s.setAbc v).straps = s.straps := rfl
@[simp] theorem State.setAbc_params (v : AbcRegs) (s : State) : (s.setAbc v).params = s.params := rfl
@[simp] theorem State.setAbc_prog (v : AbcRegs) (s : State) : (s.setAbc v).prog = s.prog := rfl
@[simp] theorem State.setAbc_env (v : AbcRegs) (s : State) : (s.setAbc v).env = s.env := rfl
@[simp] theorem State.setAbc_out (v : AbcRegs) (s : State) : (s.setAbc v).out = s.out := rfl
@[simp] theorem State.setAbc_report (v : AbcRegs) (s : State) : (s.setAbc v).report = s.report := rfl
@[simp] theorem State.setAbc_turns (v : AbcRegs) (s : State) : (s.setAbc v).turns = s.turns := rfl
@[simp] theorem State.setAbc_turnCycle (v : AbcRegs) (s : State) : (s.setAbc v).turnCycle = s.turnCycle := rfl

/-! `setMenu` -/

@[simp] theorem State.setMenu_enc (v : MenuRegs) (s : State) : (s.setMenu v).enc = s.enc := rfl
@[simp] theorem State.setMenu_abc (v : MenuRegs) (s : State) : (s.setMenu v).abc = s.abc := rfl
@[simp] theorem State.setMenu_pendingButton (v : MenuRegs) (s : State) : (s.setMenu v).pendingButton = s.pendingButton := rfl
@[simp] theorem State.setMenu_chip (v : MenuRegs) (s : State) : (s.setMenu v).chip = s.chip := rfl
@[simp] theorem State.setMenu_menu (v : MenuRegs) (s : State) : (s.setMenu v).menu = v := rfl
@[simp] theorem State.setMenu_sys (v : MenuRegs) (s : State) : (s.setMenu v).sys = s.sys := rfl
@[simp] theorem State.setMenu_straps (v : MenuRegs) (s : State) : (s.setMenu v).straps = s.straps := rfl
@[simp] theorem State.setMenu_params (v : MenuRegs) (s : State) : (s.setMenu v).params = s.params := rfl
@[simp] theorem State.setMenu_prog (v : MenuRegs) (s : State) : (s.setMenu v).prog = s.prog := rfl
@[simp] theorem State.setMenu_env (v : MenuRegs) (s : State) : (s.setMenu v).env = s.env := rfl
@[simp] theorem State.setMenu_out (v : MenuRegs) (s : State) : (s.setMenu v).out = s.out := rfl
@[simp] theorem State.setMenu_report (v : MenuRegs) (s : State) : (s.setMenu v).report = s.report := rfl
@[simp] theorem State.setMenu_turns (v : MenuRegs) (s : State) : (s.setMenu v).turns = s.turns := rfl
@[simp] theorem State.setMenu_turnCycle (v : MenuRegs) (s : State) : (s.setMenu v).turnCycle = s.turnCycle := rfl

/-! `setSys` -/

@[simp] theorem State.setSys_enc (v : SysRegs) (s : State) : (s.setSys v).enc = s.enc := rfl
@[simp] theorem State.setSys_abc (v : SysRegs) (s : State) : (s.setSys v).abc = s.abc := rfl
@[simp] theorem State.setSys_pendingButton (v : SysRegs) (s : State) : (s.setSys v).pendingButton = s.pendingButton := rfl
@[simp] theorem State.setSys_chip (v : SysRegs) (s : State) : (s.setSys v).chip = s.chip := rfl
@[simp] theorem State.setSys_menu (v : SysRegs) (s : State) : (s.setSys v).menu = s.menu := rfl
@[simp] theorem State.setSys_sys (v : SysRegs) (s : State) : (s.setSys v).sys = v := rfl
@[simp] theorem State.setSys_straps (v : SysRegs) (s : State) : (s.setSys v).straps = s.straps := rfl
@[simp] theorem State.setSys_params (v : SysRegs) (s : State) : (s.setSys v).params = s.params := rfl
@[simp] theorem State.setSys_prog (v : SysRegs) (s : State) : (s.setSys v).prog = s.prog := rfl
@[simp] theorem State.setSys_env (v : SysRegs) (s : State) : (s.setSys v).env = s.env := rfl
@[simp] theorem State.setSys_out (v : SysRegs) (s : State) : (s.setSys v).out = s.out := rfl
@[simp] theorem State.setSys_report (v : SysRegs) (s : State) : (s.setSys v).report = s.report := rfl
@[simp] theorem State.setSys_turns (v : SysRegs) (s : State) : (s.setSys v).turns = s.turns := rfl
@[simp] theorem State.setSys_turnCycle (v : SysRegs) (s : State) : (s.setSys v).turnCycle = s.turnCycle := rfl

/-! `setPending` -/

@[simp] theorem State.setPending_enc (v : Idx) (s : State) : (s.setPending v).enc = s.enc := rfl
@[simp] theorem State.setPending_abc (v : Idx) (s : State) : (s.setPending v).abc = s.abc := rfl
@[simp] theorem State.setPending_pendingButton (v : Idx) (s : State) : (s.setPending v).pendingButton = v := rfl
@[simp] theorem State.setPending_chip (v : Idx) (s : State) : (s.setPending v).chip = s.chip := rfl
@[simp] theorem State.setPending_menu (v : Idx) (s : State) : (s.setPending v).menu = s.menu := rfl
@[simp] theorem State.setPending_sys (v : Idx) (s : State) : (s.setPending v).sys = s.sys := rfl
@[simp] theorem State.setPending_straps (v : Idx) (s : State) : (s.setPending v).straps = s.straps := rfl
@[simp] theorem State.setPending_params (v : Idx) (s : State) : (s.setPending v).params = s.params := rfl
@[simp] theorem State.setPending_prog (v : Idx) (s : State) : (s.setPending v).prog = s.prog := rfl
@[simp] theorem State.setPending_env (v : Idx) (s : State) : (s.setPending v).env = s.env := rfl
@[simp] theorem State.setPending_out (v : Idx) (s : State) : (s.setPending v).out = s.out := rfl
@[simp] theorem State.setPending_report (v : Idx) (s : State) : (s.setPending v).report = s.report := rfl
@[simp] theorem State.setPending_turns (v : Idx) (s : State) : (s.setPending v).turns = s.turns := rfl
@[simp] theorem State.setPending_turnCycle (v : Idx) (s : State) : (s.setPending v).turnCycle = s.turnCycle := rfl

/-! `setProg` -/

@[simp] theorem State.setProg_enc (v : Progress) (s : State) : (s.setProg v).enc = s.enc := rfl
@[simp] theorem State.setProg_abc (v : Progress) (s : State) : (s.setProg v).abc = s.abc := rfl
@[simp] theorem State.setProg_pendingButton (v : Progress) (s : State) : (s.setProg v).pendingButton = s.pendingButton := rfl
@[simp] theorem State.setProg_chip (v : Progress) (s : State) : (s.setProg v).chip = s.chip := rfl
@[simp] theorem State.setProg_menu (v : Progress) (s : State) : (s.setProg v).menu = s.menu := rfl
@[simp] theorem State.setProg_sys (v : Progress) (s : State) : (s.setProg v).sys = s.sys := rfl
@[simp] theorem State.setProg_straps (v : Progress) (s : State) : (s.setProg v).straps = s.straps := rfl
@[simp] theorem State.setProg_params (v : Progress) (s : State) : (s.setProg v).params = s.params := rfl
@[simp] theorem State.setProg_prog (v : Progress) (s : State) : (s.setProg v).prog = v := rfl
@[simp] theorem State.setProg_env (v : Progress) (s : State) : (s.setProg v).env = s.env := rfl
@[simp] theorem State.setProg_out (v : Progress) (s : State) : (s.setProg v).out = s.out := rfl
@[simp] theorem State.setProg_report (v : Progress) (s : State) : (s.setProg v).report = s.report := rfl
@[simp] theorem State.setProg_turns (v : Progress) (s : State) : (s.setProg v).turns = s.turns := rfl
@[simp] theorem State.setProg_turnCycle (v : Progress) (s : State) : (s.setProg v).turnCycle = s.turnCycle := rfl

/-! `setMicro` -/

@[simp] theorem State.setMicro_enc (m : MicroStep) (s : State) : (s.setMicro m).enc = s.enc := rfl
@[simp] theorem State.setMicro_abc (m : MicroStep) (s : State) : (s.setMicro m).abc = s.abc := rfl
@[simp] theorem State.setMicro_pendingButton (m : MicroStep) (s : State) : (s.setMicro m).pendingButton = s.pendingButton := rfl
@[simp] theorem State.setMicro_chip (m : MicroStep) (s : State) : (s.setMicro m).chip = s.chip := rfl
@[simp] theorem State.setMicro_menu (m : MicroStep) (s : State) : (s.setMicro m).menu = s.menu := rfl
@[simp] theorem State.setMicro_sys (m : MicroStep) (s : State) : (s.setMicro m).sys = s.sys := rfl
@[simp] theorem State.setMicro_straps (m : MicroStep) (s : State) : (s.setMicro m).straps = s.straps := rfl
@[simp] theorem State.setMicro_params (m : MicroStep) (s : State) : (s.setMicro m).params = s.params := rfl
@[simp] theorem State.setMicro_prog (m : MicroStep) (s : State) : (s.setMicro m).prog = { s.prog with micro := m } := rfl
@[simp] theorem State.setMicro_env (m : MicroStep) (s : State) : (s.setMicro m).env = s.env := rfl
@[simp] theorem State.setMicro_out (m : MicroStep) (s : State) : (s.setMicro m).out = s.out := rfl
@[simp] theorem State.setMicro_report (m : MicroStep) (s : State) : (s.setMicro m).report = s.report := rfl
@[simp] theorem State.setMicro_turns (m : MicroStep) (s : State) : (s.setMicro m).turns = s.turns := rfl
@[simp] theorem State.setMicro_turnCycle (m : MicroStep) (s : State) : (s.setMicro m).turnCycle = s.turnCycle := rfl

/-! `setEnv` -/

@[simp] theorem State.setEnv_enc (v : EnvInputs) (s : State) : (s.setEnv v).enc = s.enc := rfl
@[simp] theorem State.setEnv_abc (v : EnvInputs) (s : State) : (s.setEnv v).abc = s.abc := rfl
@[simp] theorem State.setEnv_pendingButton (v : EnvInputs) (s : State) : (s.setEnv v).pendingButton = s.pendingButton := rfl
@[simp] theorem State.setEnv_chip (v : EnvInputs) (s : State) : (s.setEnv v).chip = s.chip := rfl
@[simp] theorem State.setEnv_menu (v : EnvInputs) (s : State) : (s.setEnv v).menu = s.menu := rfl
@[simp] theorem State.setEnv_sys (v : EnvInputs) (s : State) : (s.setEnv v).sys = s.sys := rfl
@[simp] theorem State.setEnv_straps (v : EnvInputs) (s : State) : (s.setEnv v).straps = s.straps := rfl
@[simp] theorem State.setEnv_params (v : EnvInputs) (s : State) : (s.setEnv v).params = s.params := rfl
@[simp] theorem State.setEnv_prog (v : EnvInputs) (s : State) : (s.setEnv v).prog = s.prog := rfl
@[simp] theorem State.setEnv_env (v : EnvInputs) (s : State) : (s.setEnv v).env = v := rfl
@[simp] theorem State.setEnv_out (v : EnvInputs) (s : State) : (s.setEnv v).out = s.out := rfl
@[simp] theorem State.setEnv_report (v : EnvInputs) (s : State) : (s.setEnv v).report = s.report := rfl
@[simp] theorem State.setEnv_turns (v : EnvInputs) (s : State) : (s.setEnv v).turns = s.turns := rfl
@[simp] theorem State.setEnv_turnCycle (v : EnvInputs) (s : State) : (s.setEnv v).turnCycle = s.turnCycle := rfl

/-! `setReport` -/

@[simp] theorem State.setReport_enc (c : Chip) (p : Pin) (s : State) : (s.setReport c p).enc = s.enc := rfl
@[simp] theorem State.setReport_abc (c : Chip) (p : Pin) (s : State) : (s.setReport c p).abc = s.abc := rfl
@[simp] theorem State.setReport_pendingButton (c : Chip) (p : Pin) (s : State) : (s.setReport c p).pendingButton = s.pendingButton := rfl
@[simp] theorem State.setReport_chip (c : Chip) (p : Pin) (s : State) : (s.setReport c p).chip = s.chip := rfl
@[simp] theorem State.setReport_menu (c : Chip) (p : Pin) (s : State) : (s.setReport c p).menu = s.menu := rfl
@[simp] theorem State.setReport_sys (c : Chip) (p : Pin) (s : State) : (s.setReport c p).sys = s.sys := rfl
@[simp] theorem State.setReport_straps (c : Chip) (p : Pin) (s : State) : (s.setReport c p).straps = s.straps := rfl
@[simp] theorem State.setReport_params (c : Chip) (p : Pin) (s : State) : (s.setReport c p).params = s.params := rfl
@[simp] theorem State.setReport_prog (c : Chip) (p : Pin) (s : State) : (s.setReport c p).prog = s.prog := rfl
@[simp] theorem State.setReport_env (c : Chip) (p : Pin) (s : State) : (s.setReport c p).env = s.env := rfl
@[simp] theorem State.setReport_out (c : Chip) (p : Pin) (s : State) : (s.setReport c p).out = s.out := rfl
@[simp] theorem State.setReport_report (c : Chip) (p : Pin) (s : State) : (s.setReport c p).report = s.report.set c p := rfl
@[simp] theorem State.setReport_turns (c : Chip) (p : Pin) (s : State) : (s.setReport c p).turns = s.turns := rfl
@[simp] theorem State.setReport_turnCycle (c : Chip) (p : Pin) (s : State) : (s.setReport c p).turnCycle = s.turnCycle := rfl

/-! `popTurn` -/

@[simp] theorem State.popTurn_enc (s : State) : (s.popTurn).enc = s.enc := rfl
@[simp] theorem State.popTurn_abc (s : State) : (s.popTurn).abc = s.abc := rfl
@[simp] theorem State.popTurn_pendingButton (s : State) : (s.popTurn).pendingButton = s.pendingButton := rfl
@[simp] theorem State.popTurn_chip (s : State) : (s.popTurn).chip = s.chip := rfl
@[simp] theorem State.popTurn_menu (s : State) : (s.popTurn).menu = s.menu := rfl
@[simp] theorem State.popTurn_sys (s : State) : (s.popTurn).sys = s.sys := rfl
@[simp] theorem State.popTurn_straps (s : State) : (s.popTurn).straps = s.straps := rfl
@[simp] theorem State.popTurn_params (s : State) : (s.popTurn).params = s.params := rfl
@[simp] theorem State.popTurn_prog (s : State) : (s.popTurn).prog = s.prog := rfl
@[simp] theorem State.popTurn_env (s : State) : (s.popTurn).env = s.env := rfl
@[simp] theorem State.popTurn_out (s : State) : (s.popTurn).out = s.out := rfl
@[simp] theorem State.popTurn_report (s : State) : (s.popTurn).report = s.report := rfl
@[simp] theorem State.popTurn_turns (s : State) : (s.popTurn).turns = s.comingTurns.tail := rfl
@[simp] theorem State.popTurn_turnCycle (s : State) : (s.popTurn).turnCycle = s.turnCycle := rfl

/-! `emit` -/

@[simp] theorem State.emit_enc (x : Event) (s : State) : (s.emit x).enc = s.enc := rfl
@[simp] theorem State.emit_abc (x : Event) (s : State) : (s.emit x).abc = s.abc := rfl
@[simp] theorem State.emit_pendingButton (x : Event) (s : State) : (s.emit x).pendingButton = s.pendingButton := rfl
@[simp] theorem State.emit_chip (x : Event) (s : State) : (s.emit x).chip = s.chip := rfl
@[simp] theorem State.emit_menu (x : Event) (s : State) : (s.emit x).menu = s.menu := rfl
@[simp] theorem State.emit_sys (x : Event) (s : State) : (s.emit x).sys = s.sys := rfl
@[simp] theorem State.emit_straps (x : Event) (s : State) : (s.emit x).straps = s.straps := rfl
@[simp] theorem State.emit_params (x : Event) (s : State) : (s.emit x).params = s.params := rfl
@[simp] theorem State.emit_prog (x : Event) (s : State) : (s.emit x).prog = s.prog := rfl
@[simp] theorem State.emit_env (x : Event) (s : State) : (s.emit x).env = s.env := rfl
@[simp] theorem State.emit_out (x : Event) (s : State) : (s.emit x).out = { s.out with events := s.out.events ++ [x] } := rfl
@[simp] theorem State.emit_report (x : Event) (s : State) : (s.emit x).report = s.report := rfl
@[simp] theorem State.emit_turns (x : Event) (s : State) : (s.emit x).turns = s.turns := rfl
@[simp] theorem State.emit_turnCycle (x : Event) (s : State) : (s.emit x).turnCycle = s.turnCycle := rfl

/-! `respond` -/

@[simp] theorem State.respond_enc (v : Word) (s : State) : (s.respond v).enc = s.enc := rfl
@[simp] theorem State.respond_abc (v : Word) (s : State) : (s.respond v).abc = s.abc := rfl
@[simp] theorem State.respond_pendingButton (v : Word) (s : State) : (s.respond v).pendingButton = s.pendingButton := rfl
@[simp] theorem State.respond_chip (v : Word) (s : State) : (s.respond v).chip = s.chip := rfl
@[simp] theorem State.respond_menu (v : Word) (s : State) : (s.respond v).menu = s.menu := rfl
@[simp] theorem State.respond_sys (v : Word) (s : State) : (s.respond v).sys = s.sys := rfl
@[simp] theorem State.respond_straps (v : Word) (s : State) : (s.respond v).straps = s.straps := rfl
@[simp] theorem State.respond_params (v : Word) (s : State) : (s.respond v).params = s.params := rfl
@[simp] theorem State.respond_prog (v : Word) (s : State) : (s.respond v).prog = s.prog := rfl
@[simp] theorem State.respond_env (v : Word) (s : State) : (s.respond v).env = s.env := rfl
@[simp] theorem State.respond_out (v : Word) (s : State) : (s.respond v).out = { s.out with responses := s.out.responses ++ [v] } := rfl
@[simp] theorem State.respond_report (v : Word) (s : State) : (s.respond v).report = s.report := rfl
@[simp] theorem State.respond_turns (v : Word) (s : State) : (s.respond v).turns = s.turns := rfl
@[simp] theorem State.respond_turnCycle (v : Word) (s : State) : (s.respond v).turnCycle = s.turnCycle := rfl

/-! `pushTrace` -/

@[simp] theorem State.pushTrace_enc (w : Word) (s : State) : (s.pushTrace w).enc = s.enc := rfl
@[simp] theorem State.pushTrace_abc (w : Word) (s : State) : (s.pushTrace w).abc = s.abc := rfl
@[simp] theorem State.pushTrace_pendingButton (w : Word) (s : State) : (s.pushTrace w).pendingButton = s.pendingButton := rfl
@[simp] theorem State.pushTrace_chip (w : Word) (s : State) : (s.pushTrace w).chip = s.chip := rfl
@[simp] theorem State.pushTrace_menu (w : Word) (s : State) : (s.pushTrace w).menu = s.menu := rfl
@[simp] theorem State.pushTrace_sys (w : Word) (s : State) : (s.pushTrace w).sys = s.sys := rfl
@[simp] theorem State.pushTrace_straps (w : Word) (s : State) : (s.pushTrace w).straps = s.straps := rfl
@[simp] theorem State.pushTrace_params (w : Word) (s : State) : (s.pushTrace w).params = s.params := rfl
@[simp] theorem State.pushTrace_prog (w : Word) (s : State) : (s.pushTrace w).prog = s.prog := rfl
@[simp] theorem State.pushTrace_env (w : Word) (s : State) : (s.pushTrace w).env = s.env := rfl
@[simp] theorem State.pushTrace_out (w : Word) (s : State) : (s.pushTrace w).out = { s.out with trace := s.out.trace ++ [w] } := rfl
@[simp] theorem State.pushTrace_report (w : Word) (s : State) : (s.pushTrace w).report = s.report := rfl
@[simp] theorem State.pushTrace_turns (w : Word) (s : State) : (s.pushTrace w).turns = s.turns := rfl
@[simp] theorem State.pushTrace_turnCycle (w : Word) (s : State) : (s.pushTrace w).turnCycle = s.turnCycle := rfl

/-! `setFault` -/

@[simp] theorem State.setFault_enc (b : BitVec 3) (s : State) : (s.setFault b).enc = s.enc := rfl
@[simp] theorem State.setFault_abc (b : BitVec 3) (s : State) : (s.setFault b).abc = s.abc := rfl
@[simp] theorem State.setFault_pendingButton (b : BitVec 3) (s : State) : (s.setFault b).pendingButton = s.pendingButton := rfl
@[simp] theorem State.setFault_chip (b : BitVec 3) (s : State) : (s.setFault b).chip = s.chip := rfl
@[simp] theorem State.setFault_menu (b : BitVec 3) (s : State) : (s.setFault b).menu = s.menu := rfl
@[simp] theorem State.setFault_sys (b : BitVec 3) (s : State) : (s.setFault b).sys = { s.sys with fault := s.sys.fault ||| b } := rfl
@[simp] theorem State.setFault_straps (b : BitVec 3) (s : State) : (s.setFault b).straps = s.straps := rfl
@[simp] theorem State.setFault_params (b : BitVec 3) (s : State) : (s.setFault b).params = s.params := rfl
@[simp] theorem State.setFault_prog (b : BitVec 3) (s : State) : (s.setFault b).prog = s.prog := rfl
@[simp] theorem State.setFault_env (b : BitVec 3) (s : State) : (s.setFault b).env = s.env := rfl
@[simp] theorem State.setFault_out (b : BitVec 3) (s : State) : (s.setFault b).out = s.out := rfl
@[simp] theorem State.setFault_report (b : BitVec 3) (s : State) : (s.setFault b).report = s.report := rfl
@[simp] theorem State.setFault_turns (b : BitVec 3) (s : State) : (s.setFault b).turns = s.turns := rfl
@[simp] theorem State.setFault_turnCycle (b : BitVec 3) (s : State) : (s.setFault b).turnCycle = s.turnCycle := rfl

/-! `reservedWord` -/

@[simp] theorem State.reservedWord_enc (s : State) : (s.reservedWord).enc = s.enc := rfl
@[simp] theorem State.reservedWord_abc (s : State) : (s.reservedWord).abc = s.abc := rfl
@[simp] theorem State.reservedWord_pendingButton (s : State) : (s.reservedWord).pendingButton = s.pendingButton := rfl
@[simp] theorem State.reservedWord_chip (s : State) : (s.reservedWord).chip = s.chip := rfl
@[simp] theorem State.reservedWord_menu (s : State) : (s.reservedWord).menu = s.menu := rfl
@[simp] theorem State.reservedWord_sys (s : State) : (s.reservedWord).sys = { s.sys with fault := s.sys.fault ||| F_CMD } := rfl
@[simp] theorem State.reservedWord_straps (s : State) : (s.reservedWord).straps = s.straps := rfl
@[simp] theorem State.reservedWord_params (s : State) : (s.reservedWord).params = s.params := rfl
@[simp] theorem State.reservedWord_prog (s : State) : (s.reservedWord).prog = s.prog := rfl
@[simp] theorem State.reservedWord_env (s : State) : (s.reservedWord).env = s.env := rfl
@[simp] theorem State.reservedWord_out (s : State) : (s.reservedWord).out = s.out := rfl
@[simp] theorem State.reservedWord_report (s : State) : (s.reservedWord).report = s.report := rfl
@[simp] theorem State.reservedWord_turns (s : State) : (s.reservedWord).turns = s.turns := rfl
@[simp] theorem State.reservedWord_turnCycle (s : State) : (s.reservedWord).turnCycle = s.turnCycle := rfl

/-! `outOfContract` -/

@[simp] theorem State.outOfContract_enc (s : State) : (s.outOfContract).enc = s.enc := rfl
@[simp] theorem State.outOfContract_abc (s : State) : (s.outOfContract).abc = s.abc := rfl
@[simp] theorem State.outOfContract_pendingButton (s : State) : (s.outOfContract).pendingButton = s.pendingButton := rfl
@[simp] theorem State.outOfContract_chip (s : State) : (s.outOfContract).chip = s.chip := rfl
@[simp] theorem State.outOfContract_menu (s : State) : (s.outOfContract).menu = s.menu := rfl
@[simp] theorem State.outOfContract_sys (s : State) : (s.outOfContract).sys = { s.sys with fault := s.sys.fault ||| F_CONTRACT } := rfl
@[simp] theorem State.outOfContract_straps (s : State) : (s.outOfContract).straps = s.straps := rfl
@[simp] theorem State.outOfContract_params (s : State) : (s.outOfContract).params = s.params := rfl
@[simp] theorem State.outOfContract_prog (s : State) : (s.outOfContract).prog = s.prog := rfl
@[simp] theorem State.outOfContract_env (s : State) : (s.outOfContract).env = s.env := rfl
@[simp] theorem State.outOfContract_out (s : State) : (s.outOfContract).out = s.out := rfl
@[simp] theorem State.outOfContract_report (s : State) : (s.outOfContract).report = s.report := rfl
@[simp] theorem State.outOfContract_turns (s : State) : (s.outOfContract).turns = s.turns := rfl
@[simp] theorem State.outOfContract_turnCycle (s : State) : (s.outOfContract).turnCycle = s.turnCycle := rfl

/-! `enterHandler` -/

@[simp] theorem State.enterHandler_enc (c : Chip) (s : State) : (s.enterHandler c).enc = s.enc := rfl
@[simp] theorem State.enterHandler_abc (c : Chip) (s : State) : (s.enterHandler c).abc = s.abc := rfl
@[simp] theorem State.enterHandler_pendingButton (c : Chip) (s : State) : (s.enterHandler c).pendingButton = s.pendingButton := rfl
@[simp] theorem State.enterHandler_chip (c : Chip) (s : State) : (s.enterHandler c).chip = s.chip.set c { s.chip[c] with irqLatch := false, isrState := .FETCH } := rfl
@[simp] theorem State.enterHandler_menu (c : Chip) (s : State) : (s.enterHandler c).menu = s.menu := rfl
@[simp] theorem State.enterHandler_sys (c : Chip) (s : State) : (s.enterHandler c).sys = s.sys := rfl
@[simp] theorem State.enterHandler_straps (c : Chip) (s : State) : (s.enterHandler c).straps = s.straps := rfl
@[simp] theorem State.enterHandler_params (c : Chip) (s : State) : (s.enterHandler c).params = s.params := rfl
@[simp] theorem State.enterHandler_prog (c : Chip) (s : State) : (s.enterHandler c).prog = s.prog := rfl
@[simp] theorem State.enterHandler_env (c : Chip) (s : State) : (s.enterHandler c).env = s.env := rfl
@[simp] theorem State.enterHandler_out (c : Chip) (s : State) : (s.enterHandler c).out = s.out := rfl
@[simp] theorem State.enterHandler_report (c : Chip) (s : State) : (s.enterHandler c).report = s.report := rfl
@[simp] theorem State.enterHandler_turns (c : Chip) (s : State) : (s.enterHandler c).turns = s.turns := rfl
@[simp] theorem State.enterHandler_turnCycle (c : Chip) (s : State) : (s.enterHandler c).turnCycle = s.turnCycle := rfl

/-! `returnHandler` -/

@[simp] theorem State.returnHandler_enc (c : Chip) (s : State) : (s.returnHandler c).enc = s.enc := rfl
@[simp] theorem State.returnHandler_abc (c : Chip) (s : State) : (s.returnHandler c).abc = s.abc := rfl
@[simp] theorem State.returnHandler_pendingButton (c : Chip) (s : State) : (s.returnHandler c).pendingButton = s.pendingButton := rfl
@[simp] theorem State.returnHandler_chip (c : Chip) (s : State) : (s.returnHandler c).chip = s.chip.set c { s.chip[c] with isrState := .IDLE } := rfl
@[simp] theorem State.returnHandler_menu (c : Chip) (s : State) : (s.returnHandler c).menu = s.menu := rfl
@[simp] theorem State.returnHandler_sys (c : Chip) (s : State) : (s.returnHandler c).sys = s.sys := rfl
@[simp] theorem State.returnHandler_straps (c : Chip) (s : State) : (s.returnHandler c).straps = s.straps := rfl
@[simp] theorem State.returnHandler_params (c : Chip) (s : State) : (s.returnHandler c).params = s.params := rfl
@[simp] theorem State.returnHandler_prog (c : Chip) (s : State) : (s.returnHandler c).prog = s.prog := rfl
@[simp] theorem State.returnHandler_env (c : Chip) (s : State) : (s.returnHandler c).env = s.env := rfl
@[simp] theorem State.returnHandler_out (c : Chip) (s : State) : (s.returnHandler c).out = s.out := rfl
@[simp] theorem State.returnHandler_report (c : Chip) (s : State) : (s.returnHandler c).report = s.report := rfl
@[simp] theorem State.returnHandler_turns (c : Chip) (s : State) : (s.returnHandler c).turns = s.turns := rfl
@[simp] theorem State.returnHandler_turnCycle (c : Chip) (s : State) : (s.returnHandler c).turnCycle = s.turnCycle := rfl

/-! `dropAdc` -/

@[simp] theorem State.dropAdc_enc (s : State) : (s.dropAdc).enc = s.enc := rfl
@[simp] theorem State.dropAdc_abc (s : State) : (s.dropAdc).abc = s.abc := rfl
@[simp] theorem State.dropAdc_pendingButton (s : State) : (s.dropAdc).pendingButton = s.pendingButton := rfl
@[simp] theorem State.dropAdc_chip (s : State) : (s.dropAdc).chip = s.chip := rfl
@[simp] theorem State.dropAdc_menu (s : State) : (s.dropAdc).menu = s.menu := rfl
@[simp] theorem State.dropAdc_sys (s : State) : (s.dropAdc).sys = s.sys := rfl
@[simp] theorem State.dropAdc_straps (s : State) : (s.dropAdc).straps = s.straps := rfl
@[simp] theorem State.dropAdc_params (s : State) : (s.dropAdc).params = s.params := rfl
@[simp] theorem State.dropAdc_prog (s : State) : (s.dropAdc).prog = s.prog := rfl
@[simp] theorem State.dropAdc_env (s : State) : (s.dropAdc).env = { s.env with adc := s.env.adc.tail } := rfl
@[simp] theorem State.dropAdc_out (s : State) : (s.dropAdc).out = s.out := rfl
@[simp] theorem State.dropAdc_report (s : State) : (s.dropAdc).report = s.report := rfl
@[simp] theorem State.dropAdc_turns (s : State) : (s.dropAdc).turns = s.turns := rfl
@[simp] theorem State.dropAdc_turnCycle (s : State) : (s.dropAdc).turnCycle = s.turnCycle := rfl

/-! `dropRet` -/

@[simp] theorem State.dropRet_enc (s : State) : (s.dropRet).enc = s.enc := rfl
@[simp] theorem State.dropRet_abc (s : State) : (s.dropRet).abc = s.abc := rfl
@[simp] theorem State.dropRet_pendingButton (s : State) : (s.dropRet).pendingButton = s.pendingButton := rfl
@[simp] theorem State.dropRet_chip (s : State) : (s.dropRet).chip = s.chip := rfl
@[simp] theorem State.dropRet_menu (s : State) : (s.dropRet).menu = s.menu := rfl
@[simp] theorem State.dropRet_sys (s : State) : (s.dropRet).sys = s.sys := rfl
@[simp] theorem State.dropRet_straps (s : State) : (s.dropRet).straps = s.straps := rfl
@[simp] theorem State.dropRet_params (s : State) : (s.dropRet).params = s.params := rfl
@[simp] theorem State.dropRet_prog (s : State) : (s.dropRet).prog = s.prog := rfl
@[simp] theorem State.dropRet_env (s : State) : (s.dropRet).env = { s.env with ret := s.env.ret.tail } := rfl
@[simp] theorem State.dropRet_out (s : State) : (s.dropRet).out = s.out := rfl
@[simp] theorem State.dropRet_report (s : State) : (s.dropRet).report = s.report := rfl
@[simp] theorem State.dropRet_turns (s : State) : (s.dropRet).turns = s.turns := rfl
@[simp] theorem State.dropRet_turnCycle (s : State) : (s.dropRet).turnCycle = s.turnCycle := rfl

end Sys2Proof.Machine
end

