-- ==== Sys2Proof/Laws/Meanings.lean ====
section
/-! SUPPORT. The same lemmas for the updates that the meanings share. -/

namespace Sys2Proof.Machine

/-! `setIrqEnable` -/

@[simp] theorem State.setIrqEnable_enc (b : Bool) (s : State) : (s.setIrqEnable b).enc = s.enc := rfl
@[simp] theorem State.setIrqEnable_abc (b : Bool) (s : State) : (s.setIrqEnable b).abc = s.abc := rfl
@[simp] theorem State.setIrqEnable_pendingButton (b : Bool) (s : State) : (s.setIrqEnable b).pendingButton = s.pendingButton := rfl
@[simp] theorem State.setIrqEnable_chip (b : Bool) (s : State) : (s.setIrqEnable b).chip = s.chip := rfl
@[simp] theorem State.setIrqEnable_menu (b : Bool) (s : State) : (s.setIrqEnable b).menu = s.menu := rfl
@[simp] theorem State.setIrqEnable_sys (b : Bool) (s : State) : (s.setIrqEnable b).sys = { s.sys with irqEnable := b } := rfl
@[simp] theorem State.setIrqEnable_straps (b : Bool) (s : State) : (s.setIrqEnable b).straps = s.straps := rfl
@[simp] theorem State.setIrqEnable_params (b : Bool) (s : State) : (s.setIrqEnable b).params = s.params := rfl
@[simp] theorem State.setIrqEnable_prog (b : Bool) (s : State) : (s.setIrqEnable b).prog = s.prog := rfl
@[simp] theorem State.setIrqEnable_env (b : Bool) (s : State) : (s.setIrqEnable b).env = s.env := rfl
@[simp] theorem State.setIrqEnable_out (b : Bool) (s : State) : (s.setIrqEnable b).out = s.out := rfl
@[simp] theorem State.setIrqEnable_report (b : Bool) (s : State) : (s.setIrqEnable b).report = s.report := rfl
@[simp] theorem State.setIrqEnable_turns (b : Bool) (s : State) : (s.setIrqEnable b).turns = s.turns := rfl
@[simp] theorem State.setIrqEnable_turnCycle (b : Bool) (s : State) : (s.setIrqEnable b).turnCycle = s.turnCycle := rfl

/-! `updateEnc` -/

@[simp] theorem State.updateEnc_enc (e : EncId) (a b : Bool) (s : State) : (s.updateEnc e a b).enc = s.enc.set e (s.enc[e].update s.params.qtable s.params.accW a b) := rfl
@[simp] theorem State.updateEnc_abc (e : EncId) (a b : Bool) (s : State) : (s.updateEnc e a b).abc = s.abc := rfl
@[simp] theorem State.updateEnc_pendingButton (e : EncId) (a b : Bool) (s : State) : (s.updateEnc e a b).pendingButton = s.pendingButton := rfl
@[simp] theorem State.updateEnc_chip (e : EncId) (a b : Bool) (s : State) : (s.updateEnc e a b).chip = s.chip := rfl
@[simp] theorem State.updateEnc_menu (e : EncId) (a b : Bool) (s : State) : (s.updateEnc e a b).menu = s.menu := rfl
@[simp] theorem State.updateEnc_sys (e : EncId) (a b : Bool) (s : State) : (s.updateEnc e a b).sys = s.sys := rfl
@[simp] theorem State.updateEnc_straps (e : EncId) (a b : Bool) (s : State) : (s.updateEnc e a b).straps = s.straps := rfl
@[simp] theorem State.updateEnc_params (e : EncId) (a b : Bool) (s : State) : (s.updateEnc e a b).params = s.params := rfl
@[simp] theorem State.updateEnc_prog (e : EncId) (a b : Bool) (s : State) : (s.updateEnc e a b).prog = s.prog := rfl
@[simp] theorem State.updateEnc_env (e : EncId) (a b : Bool) (s : State) : (s.updateEnc e a b).env = s.env := rfl
@[simp] theorem State.updateEnc_out (e : EncId) (a b : Bool) (s : State) : (s.updateEnc e a b).out = s.out := rfl
@[simp] theorem State.updateEnc_report (e : EncId) (a b : Bool) (s : State) : (s.updateEnc e a b).report = s.report := rfl
@[simp] theorem State.updateEnc_turns (e : EncId) (a b : Bool) (s : State) : (s.updateEnc e a b).turns = s.turns := rfl
@[simp] theorem State.updateEnc_turnCycle (e : EncId) (a b : Bool) (s : State) : (s.updateEnc e a b).turnCycle = s.turnCycle := rfl

/-! `clearAcc` -/

@[simp] theorem State.clearAcc_enc (e : EncId) (s : State) : (s.clearAcc e).enc = s.enc.set e { s.enc[e] with acc := 0 } := rfl
@[simp] theorem State.clearAcc_abc (e : EncId) (s : State) : (s.clearAcc e).abc = s.abc := rfl
@[simp] theorem State.clearAcc_pendingButton (e : EncId) (s : State) : (s.clearAcc e).pendingButton = s.pendingButton := rfl
@[simp] theorem State.clearAcc_chip (e : EncId) (s : State) : (s.clearAcc e).chip = s.chip := rfl
@[simp] theorem State.clearAcc_menu (e : EncId) (s : State) : (s.clearAcc e).menu = s.menu := rfl
@[simp] theorem State.clearAcc_sys (e : EncId) (s : State) : (s.clearAcc e).sys = s.sys := rfl
@[simp] theorem State.clearAcc_straps (e : EncId) (s : State) : (s.clearAcc e).straps = s.straps := rfl
@[simp] theorem State.clearAcc_params (e : EncId) (s : State) : (s.clearAcc e).params = s.params := rfl
@[simp] theorem State.clearAcc_prog (e : EncId) (s : State) : (s.clearAcc e).prog = s.prog := rfl
@[simp] theorem State.clearAcc_env (e : EncId) (s : State) : (s.clearAcc e).env = s.env := rfl
@[simp] theorem State.clearAcc_out (e : EncId) (s : State) : (s.clearAcc e).out = s.out := rfl
@[simp] theorem State.clearAcc_report (e : EncId) (s : State) : (s.clearAcc e).report = s.report := rfl
@[simp] theorem State.clearAcc_turns (e : EncId) (s : State) : (s.clearAcc e).turns = s.turns := rfl
@[simp] theorem State.clearAcc_turnCycle (e : EncId) (s : State) : (s.clearAcc e).turnCycle = s.turnCycle := rfl

/-! `showMenu` -/

@[simp] theorem State.showMenu_enc (s : State) : (s.showMenu).enc = s.enc := rfl
@[simp] theorem State.showMenu_abc (s : State) : (s.showMenu).abc = s.abc := rfl
@[simp] theorem State.showMenu_pendingButton (s : State) : (s.showMenu).pendingButton = s.pendingButton := rfl
@[simp] theorem State.showMenu_chip (s : State) : (s.showMenu).chip = s.chip := rfl
@[simp] theorem State.showMenu_menu (s : State) : (s.showMenu).menu = s.menu := rfl
@[simp] theorem State.showMenu_sys (s : State) : (s.showMenu).sys = s.sys := rfl
@[simp] theorem State.showMenu_straps (s : State) : (s.showMenu).straps = s.straps := rfl
@[simp] theorem State.showMenu_params (s : State) : (s.showMenu).params = s.params := rfl
@[simp] theorem State.showMenu_prog (s : State) : (s.showMenu).prog = s.prog := rfl
@[simp] theorem State.showMenu_env (s : State) : (s.showMenu).env = s.env := rfl
@[simp] theorem State.showMenu_out (s : State) : (s.showMenu).out = { s.out with events := s.out.events ++ [.SHOW_MENU s.menu.mainMenuIndex s.menu.menuStatus] } := rfl
@[simp] theorem State.showMenu_report (s : State) : (s.showMenu).report = s.report := rfl
@[simp] theorem State.showMenu_turns (s : State) : (s.showMenu).turns = s.turns := rfl
@[simp] theorem State.showMenu_turnCycle (s : State) : (s.showMenu).turnCycle = s.turnCycle := rfl

/-! `selectNoMenu` -/

@[simp] theorem State.selectNoMenu_enc (s : State) : (s.selectNoMenu).enc = s.enc := rfl
@[simp] theorem State.selectNoMenu_abc (s : State) : (s.selectNoMenu).abc = s.abc := rfl
@[simp] theorem State.selectNoMenu_pendingButton (s : State) : (s.selectNoMenu).pendingButton = s.pendingButton := rfl
@[simp] theorem State.selectNoMenu_chip (s : State) : (s.selectNoMenu).chip = s.chip := rfl
@[simp] theorem State.selectNoMenu_menu (s : State) : (s.selectNoMenu).menu = { s.menu with menuStatus := .noMenusActive, mainMenuIndex := 0, secondaryMenuIndex := 0 } := rfl
@[simp] theorem State.selectNoMenu_sys (s : State) : (s.selectNoMenu).sys = s.sys := rfl
@[simp] theorem State.selectNoMenu_straps (s : State) : (s.selectNoMenu).straps = s.straps := rfl
@[simp] theorem State.selectNoMenu_params (s : State) : (s.selectNoMenu).params = s.params := rfl
@[simp] theorem State.selectNoMenu_prog (s : State) : (s.selectNoMenu).prog = s.prog := rfl
@[simp] theorem State.selectNoMenu_env (s : State) : (s.selectNoMenu).env = s.env := rfl
@[simp] theorem State.selectNoMenu_out (s : State) : (s.selectNoMenu).out = { s.out with events := s.out.events ++ [.NOTICE_NO_MENU] } := rfl
@[simp] theorem State.selectNoMenu_report (s : State) : (s.selectNoMenu).report = s.report := rfl
@[simp] theorem State.selectNoMenu_turns (s : State) : (s.selectNoMenu).turns = s.turns := rfl
@[simp] theorem State.selectNoMenu_turnCycle (s : State) : (s.selectNoMenu).turnCycle = s.turnCycle := rfl

/-! `menuReturned` -/

@[simp] theorem State.menuReturned_enc (r : Idx) (s : State) : (s.menuReturned r).enc = s.enc := rfl
@[simp] theorem State.menuReturned_abc (r : Idx) (s : State) : (s.menuReturned r).abc = s.abc := rfl
@[simp] theorem State.menuReturned_pendingButton (r : Idx) (s : State) : (s.menuReturned r).pendingButton = s.pendingButton := rfl
@[simp] theorem State.menuReturned_chip (r : Idx) (s : State) : (s.menuReturned r).chip = s.chip := rfl
@[simp] theorem State.menuReturned_menu (r : Idx) (s : State) : (s.menuReturned r).menu = { s.menu with secondaryChoice := r, menuStatus := .secondaryMenuActive, secondaryMenuIndex := -1 } := rfl
@[simp] theorem State.menuReturned_sys (r : Idx) (s : State) : (s.menuReturned r).sys = s.sys := rfl
@[simp] theorem State.menuReturned_straps (r : Idx) (s : State) : (s.menuReturned r).straps = s.straps := rfl
@[simp] theorem State.menuReturned_params (r : Idx) (s : State) : (s.menuReturned r).params = s.params := rfl
@[simp] theorem State.menuReturned_prog (r : Idx) (s : State) : (s.menuReturned r).prog = s.prog := rfl
@[simp] theorem State.menuReturned_env (r : Idx) (s : State) : (s.menuReturned r).env = s.env := rfl
@[simp] theorem State.menuReturned_out (r : Idx) (s : State) : (s.menuReturned r).out = { s.out with events := s.out.events ++ [.SHOW_MENU s.menu.mainMenuIndex .secondaryMenuActive] } := rfl
@[simp] theorem State.menuReturned_report (r : Idx) (s : State) : (s.menuReturned r).report = s.report := rfl
@[simp] theorem State.menuReturned_turns (r : Idx) (s : State) : (s.menuReturned r).turns = s.turns := rfl
@[simp] theorem State.menuReturned_turnCycle (r : Idx) (s : State) : (s.menuReturned r).turnCycle = s.turnCycle := rfl

/-! `selectSecondary` -/

@[simp] theorem State.selectSecondary_enc (s : State) : (s.selectSecondary).enc = s.enc := rfl
@[simp] theorem State.selectSecondary_abc (s : State) : (s.selectSecondary).abc = s.abc := rfl
@[simp] theorem State.selectSecondary_pendingButton (s : State) : (s.selectSecondary).pendingButton = s.pendingButton := rfl
@[simp] theorem State.selectSecondary_chip (s : State) : (s.selectSecondary).chip = s.chip := rfl
@[simp] theorem State.selectSecondary_menu (s : State) : (s.selectSecondary).menu = { s.menu with menuStatus := .primaryMenuActive, mainMenuIndex := 0 } := rfl
@[simp] theorem State.selectSecondary_sys (s : State) : (s.selectSecondary).sys = s.sys := rfl
@[simp] theorem State.selectSecondary_straps (s : State) : (s.selectSecondary).straps = s.straps := rfl
@[simp] theorem State.selectSecondary_params (s : State) : (s.selectSecondary).params = s.params := rfl
@[simp] theorem State.selectSecondary_prog (s : State) : (s.selectSecondary).prog = s.prog := rfl
@[simp] theorem State.selectSecondary_env (s : State) : (s.selectSecondary).env = s.env := rfl
@[simp] theorem State.selectSecondary_out (s : State) : (s.selectSecondary).out = { s.out with events := s.out.events ++ [.SHOW_MENU 0 .primaryMenuActive] } := rfl
@[simp] theorem State.selectSecondary_report (s : State) : (s.selectSecondary).report = s.report := rfl
@[simp] theorem State.selectSecondary_turns (s : State) : (s.selectSecondary).turns = s.turns := rfl
@[simp] theorem State.selectSecondary_turnCycle (s : State) : (s.selectSecondary).turnCycle = s.turnCycle := rfl

/-! `settleFinish` -/

@[simp] theorem State.settleFinish_enc (s : State) : (s.settleFinish).enc = s.enc := rfl
@[simp] theorem State.settleFinish_abc (s : State) : (s.settleFinish).abc = { s.abc with abcState := .ABC_IDLE } := rfl
@[simp] theorem State.settleFinish_pendingButton (s : State) : (s.settleFinish).pendingButton = s.pendingButton := rfl
@[simp] theorem State.settleFinish_chip (s : State) : (s.settleFinish).chip = s.chip := rfl
@[simp] theorem State.settleFinish_menu (s : State) : (s.settleFinish).menu = s.menu := rfl
@[simp] theorem State.settleFinish_sys (s : State) : (s.settleFinish).sys = s.sys := rfl
@[simp] theorem State.settleFinish_straps (s : State) : (s.settleFinish).straps = s.straps := rfl
@[simp] theorem State.settleFinish_params (s : State) : (s.settleFinish).params = s.params := rfl
@[simp] theorem State.settleFinish_prog (s : State) : (s.settleFinish).prog = s.prog := rfl
@[simp] theorem State.settleFinish_env (s : State) : (s.settleFinish).env = s.env := rfl
@[simp] theorem State.settleFinish_out (s : State) : (s.settleFinish).out = s.out := rfl
@[simp] theorem State.settleFinish_report (s : State) : (s.settleFinish).report = s.report := rfl
@[simp] theorem State.settleFinish_turns (s : State) : (s.settleFinish).turns = s.turns := rfl
@[simp] theorem State.settleFinish_turnCycle (s : State) : (s.settleFinish).turnCycle = s.turnCycle := rfl

/-! `acceptCommand` -/

@[simp] theorem State.acceptCommand_enc (s : State) : (s.acceptCommand).enc = s.enc := rfl
@[simp] theorem State.acceptCommand_abc (s : State) : (s.acceptCommand).abc = s.abc := rfl
@[simp] theorem State.acceptCommand_pendingButton (s : State) : (s.acceptCommand).pendingButton = s.pendingButton := rfl
@[simp] theorem State.acceptCommand_chip (s : State) : (s.acceptCommand).chip = s.chip := rfl
@[simp] theorem State.acceptCommand_menu (s : State) : (s.acceptCommand).menu = s.menu := rfl
@[simp] theorem State.acceptCommand_sys (s : State) : (s.acceptCommand).sys = s.sys := rfl
@[simp] theorem State.acceptCommand_straps (s : State) : (s.acceptCommand).straps = s.straps := rfl
@[simp] theorem State.acceptCommand_params (s : State) : (s.acceptCommand).params = s.params := rfl
@[simp] theorem State.acceptCommand_prog (s : State) : (s.acceptCommand).prog = s.prog := rfl
@[simp] theorem State.acceptCommand_env (s : State) : (s.acceptCommand).env = { s.env with cmds := s.env.cmds.tail } := rfl
@[simp] theorem State.acceptCommand_out (s : State) : (s.acceptCommand).out = s.out := rfl
@[simp] theorem State.acceptCommand_report (s : State) : (s.acceptCommand).report = s.report := rfl
@[simp] theorem State.acceptCommand_turns (s : State) : (s.acceptCommand).turns = s.turns := rfl
@[simp] theorem State.acceptCommand_turnCycle (s : State) : (s.acceptCommand).turnCycle = s.turnCycle := rfl

/-! `toPhase` -/

@[simp] theorem State.toPhase_enc (p : FgPhase) (s : State) : (s.toPhase p).enc = s.enc := rfl
@[simp] theorem State.toPhase_abc (p : FgPhase) (s : State) : (s.toPhase p).abc = s.abc := rfl
@[simp] theorem State.toPhase_pendingButton (p : FgPhase) (s : State) : (s.toPhase p).pendingButton = s.pendingButton := rfl
@[simp] theorem State.toPhase_chip (p : FgPhase) (s : State) : (s.toPhase p).chip = s.chip := rfl
@[simp] theorem State.toPhase_menu (p : FgPhase) (s : State) : (s.toPhase p).menu = s.menu := rfl
@[simp] theorem State.toPhase_sys (p : FgPhase) (s : State) : (s.toPhase p).sys = { s.sys with fgPhase := p } := rfl
@[simp] theorem State.toPhase_straps (p : FgPhase) (s : State) : (s.toPhase p).straps = s.straps := rfl
@[simp] theorem State.toPhase_params (p : FgPhase) (s : State) : (s.toPhase p).params = s.params := rfl
@[simp] theorem State.toPhase_prog (p : FgPhase) (s : State) : (s.toPhase p).prog = { s.prog with seqPos := 0, seqDir := .noStep } := rfl
@[simp] theorem State.toPhase_env (p : FgPhase) (s : State) : (s.toPhase p).env = s.env := rfl
@[simp] theorem State.toPhase_out (p : FgPhase) (s : State) : (s.toPhase p).out = s.out := rfl
@[simp] theorem State.toPhase_report (p : FgPhase) (s : State) : (s.toPhase p).report = s.report := rfl
@[simp] theorem State.toPhase_turns (p : FgPhase) (s : State) : (s.toPhase p).turns = s.turns := rfl
@[simp] theorem State.toPhase_turnCycle (p : FgPhase) (s : State) : (s.toPhase p).turnCycle = s.turnCycle := rfl

end Sys2Proof.Machine
end

