-- ==== Sys2Proof/Laws/Ops.lean ====
section
/-! SUPPORT. For each shared operation, what it can do, said once: arithmetic, pins, the decoder update, the classifier, the
menu, and whose step a step is. -/

namespace Sys2Proof.Machine

/-! Arithmetic -/

theorem smoothStep_toNat (raw prev : Sample) : (smoothStep raw prev).toNat = (raw.toNat + 9 * prev.toNat) / 10 := by
  have := raw.isLt; have := prev.isLt
  simp only [smoothStep, BitVec.toNat_ofNat, Config.alphaDen] at *
  omega

/-- A smoothing step fits the width that its operands fit (R111). -/
theorem smoothStep_fits {w : Nat} {raw prev : Sample} (h : SampleFits w raw) (h' : SampleFits w prev) :
    SampleFits w (smoothStep raw prev) := by
  unfold SampleFits at *; rw [smoothStep_toNat]; omega

theorem accMax_nonneg (w : Nat) : 0 ≤ accMax w := by
  have : (0 : Int) < 2 ^ (w - 1) := by positivity
  unfold accMax; omega

/-- Saturation gives a value of the symmetric range (R96). -/
theorem satAcc_mem (w : Nat) (v : Int) : -accMax w ≤ satAcc w v ∧ satAcc w v ≤ accMax w := by
  have := accMax_nonneg w
  unfold satAcc; omega

/-- Inside the symmetric range saturation changes nothing (R96). -/
theorem satAcc_of_mem {w : Nat} {v : Int} (h : -accMax w ≤ v) (h' : v ≤ accMax w) : satAcc w v = v := by
  unfold satAcc; omega

theorem satAcc_neg (w : Nat) (v : Int) : satAcc w (-v) = -satAcc w v := by
  have := accMax_nonneg w
  unfold satAcc; omega

theorem lowBits_fits (w : Nat) (v : Word) : SampleFits w (lowBits w v) := by
  have := Nat.mod_lt v.toNat (Nat.two_pow_pos w)
  simp only [SampleFits, lowBits, BitVec.toNat_ofNat]
  exact lt_of_le_of_lt (Nat.mod_le _ _) this

/-- An index is what `fgTmp` gives back (R153). -/
theorem idxOfTmp_tmpOfIdx (v : Idx) : idxOfTmp (tmpOfIdx v) = v := by simp [idxOfTmp, tmpOfIdx]

theorem directionWord_signDirection (v : Int) :
    directionWord (signDirection v) = if v > 0 then 1#16 else if v < 0 then 2#16 else 0#16 := by
  unfold directionWord signDirection; split <;> [skip; split] <;> simp_all [Direction.code]

theorem buttonIdx_ne_none (k : Button) : buttonIdx k ≠ Idx.NONE := by revert k; decide
theorem buttonIdx_injective (k k' : Button) (h : buttonIdx k = buttonIdx k') : k = k' := by revert k k'; decide

/-- The indices `[0, N_SW)`, as far as the 5-bit fields name them. -/
theorem mem_buttons {n : Nat} {k : Button} : k ∈ buttons n ↔ k.val < n := by
  simp only [buttons, List.mem_take_iff_getElem, List.getElem_finRange, List.length_finRange]
  constructor
  · rintro ⟨i, hi, rfl⟩; simp only [Fin.val_cast]; omega
  · intro h; exact ⟨k.val, by have := k.isLt; simp only [Config.maxSw] at this ⊢; omega, by simp⟩

/-! Pins -/

theorem readPin_pinBit (p q : Pin) : readPin (pinBit p) q = decide (q = p) := by revert p q; decide

theorem readPin_setPin (w : Word) (p q : Pin) : readPin (setPin w p) q = (readPin w q || decide (q = p)) := by
  rw [← readPin_pinBit p q]; simp [readPin, setPin]

theorem readPin_clearPin (w : Word) (p q : Pin) : readPin (clearPin w p) q = (readPin w q && !decide (q = p)) := by
  rw [← readPin_pinBit p q]; simp [readPin, clearPin, q.isLt]

theorem readPin_writePin (w : Word) (p q : Pin) (v : Bool) :
    readPin (writePin w p v) q = if q = p then v else readPin w q := by
  cases v <;> by_cases h : q = p <;> simp [writePin, readPin_setPin, readPin_clearPin, h]

theorem setPin_ne_zero (w : Word) (p : Pin) : setPin w p ≠ 0 := by
  intro h
  have := readPin_setPin w p p
  rw [h] at this
  simp [readPin] at this

theorem exists_readPin_of_ne_zero {w : Word} (h : w ≠ 0) : ∃ p : Pin, readPin w p = true := by
  by_contra hn
  refine h (BitVec.eq_of_getLsbD_eq fun i hi => ?_)
  have : readPin w ⟨i, hi⟩ ≠ true := fun hp => hn ⟨_, hp⟩
  simpa [readPin] using this

theorem mem_scanOrder (start p : Pin) : p ∈ scanOrder start := by
  revert start p; decide

/-- A chip reports no pin exactly when nothing is pending. -/
theorem reportedPin_eq_none (pend : Word) (start : Pin) : reportedPin pend start = none ↔ pend = 0 := by
  rw [reportedPin, List.find?_eq_none]
  constructor
  · intro h
    by_contra hp
    obtain ⟨p, hp⟩ := exists_readPin_of_ne_zero hp
    exact h p (mem_scanOrder start p) hp
  · rintro rfl p _; simp [readPin]

theorem reportedPin_pending {pend : Word} {start p : Pin} (h : reportedPin pend start = some p) : readPin pend p = true :=
  List.find?_some h

/-- A pending pin is reported by a chip that starts its scan there. -/
theorem reportedPin_start {pend : Word} {p : Pin} (h : readPin pend p = true) : reportedPin pend p = some p := by
  have : scanOrder p = p :: (scanOrder p).tail := by clear h; revert p; decide
  rw [reportedPin, this, List.find?_cons_of_pos h]

/-! The decoder -/

theorem update_decodeState (t : QTable) (w : Nat) (x : EncState) (a b : Bool) :
    (x.update t w a b).decodeState = (t.entry x.decodeState (sampleOf a b)).next := rfl

/-- The accumulator after an update: kept, or a value that saturation gave. -/
theorem update_acc (t : QTable) (w : Nat) (x : EncState) (a b : Bool) :
    (x.update t w a b).acc = x.acc ∨ ∃ v, (x.update t w a b).acc = satAcc w v := by
  simp only [EncState.update]
  split
  · exact .inr ⟨_, rfl⟩
  · split
    · exact .inr ⟨_, rfl⟩
    · exact .inl rfl

theorem cycleStep_lt {cycle : List (Fin 4)} (hl : cycle.length = 4) {k : Nat} (hk : k < 5) (s : Fin 4) :
    cycleStep cycle k s < 5 := by
  unfold cycleStep
  split
  · rename_i h
    have := (List.getElem?_eq_some_iff.1 h).1
    omega
  · exact hk

/-- A table that keeps an invariant `P` of (state, samples of each cycle seen), under which every flag completes its cycle,
counts only full cycles (R92 P3, P5). -/
theorem countsOnlyCycles_of_invariant (t : QTable) (P : DecState → Nat → Nat → Bool)
    (h : ∀ q, ∀ k k' : Fin 5, P q k k' = true → ∀ s : Fin 4,
      ((t.entry q s).dirCW = true → cycleStep cwCycle k s = 4) ∧
      ((t.entry q s).dirCCW = true → cycleStep ccwCycle k' s = 4) ∧
      (if (t.entry q s).dirCW || (t.entry q s).dirCCW then P (t.entry q s).next 0 0
        else P (t.entry q s).next (cycleStep cwCycle k s) (cycleStep ccwCycle k' s)) = true)
    (l : List (Fin 4)) :
    ∀ q, ∀ k k' : Fin 5, P q k k' = true → t.countsOnlyCycles q k k' l = true := by
  induction l with
  | nil => intros; rfl
  | cons s rest ih =>
    intro q k k' hP
    obtain ⟨h1, h2, h3⟩ := h q k k' hP s
    simp only [QTable.countsOnlyCycles, Bool.and_eq_true]
    refine ⟨⟨?_, ?_⟩, ?_⟩
    · cases hd : (t.entry q s).dirCW <;> simp_all
    · cases hd : (t.entry q s).dirCCW <;> simp_all
    · split at h3 <;> rename_i hd <;> simp only [hd, if_true]
      · exact ih _ 0 0 h3
      · exact ih _ ⟨_, cycleStep_lt rfl k.isLt s⟩ ⟨_, cycleStep_lt rfl k'.isLt s⟩ h3

/-! The classifier -/

theorem classify_congr (a b : AbcRegs) (n : Nat) (v : Sample) (h1 : a.cal = b.cal) (h2 : a.calValid = b.calValid)
    (h3 : a.wiggleRoom = b.wiggleRoom) (h4 : a.wrValid = b.wrValid) : a.classify n v = b.classify n v := by
  have e1 : a.calibrated n = b.calibrated n := by unfold AbcRegs.calibrated; rw [h2, h4]
  have e2 : a.inWindow v = b.inWindow v := by funext i; unfold AbcRegs.inWindow; rw [h1, h3]
  unfold AbcRegs.classify; rw [e1, e2, h1, h3]

theorem classify_eq_uncalibrated (a : AbcRegs) (n : Nat) (v : Sample) :
    a.classify n v = .uncalibrated ↔ a.calibrated n = false := by
  unfold AbcRegs.classify
  cases h : a.calibrated n
  · simp
  · simp only [if_true]; split <;> [simp; split <;> simp]

theorem calibrated_eq_false (a : AbcRegs) (n : Nat) :
    a.calibrated n = false ↔ a.wrValid = false ∨ ∃ i : Button, i.val < n ∧ a.calValid[i] = false := by
  cases h : a.wrValid <;> simp [AbcRegs.calibrated, h, mem_buttons, -Fin.getElem_fin]

theorem classifyRespond_of_calibrated {s : State} (v : Sample) (h : s.abc.calibrated s.params.nSw = true) :
    s.classifyRespond v = s.respond (idxWord (s.abc.classify s.params.nSw v).idx) := by
  have := classify_eq_uncalibrated s.abc s.params.nSw v
  unfold State.classifyRespond; split <;> simp_all

theorem classifyRespond_of_uncalibrated {s : State} (v : Sample) (h : s.abc.calibrated s.params.nSw = false) :
    s.classifyRespond v = (s.setFault F_CAL).respond 0xFFFF#16 := by
  have := (classify_eq_uncalibrated s.abc s.params.nSw v).2 h
  unfold State.classifyRespond; rw [this]; rfl

/-- A pass with nothing to read changes nothing. -/
theorem pollPass_nil {s : State} (h : s.env.adc = []) : s.pollPass = s := by simp only [State.pollPass, h]

/-- A pass whose result is not the sentinel. -/
theorem pollPass_cons {s : State} {raw : Sample} {rest : List Sample} (h : s.env.adc = raw :: rest)
    (hs : s.params.floatSentinel ≠ some raw) :
    s.pollPass = if stableFlag (smoothStep raw s.abc.smoothed) s.abc.smoothed then
        ((s.dropAdc).setAbc { s.abc.filter raw with abcState := .ABC_IDLE }).classifyRespond
          (smoothStep raw s.abc.smoothed)
      else (s.dropAdc).setAbc (s.abc.filter raw) := by
  simp only [State.pollPass, h, if_neg hs]; rfl

/-- A pass whose result is the sentinel. -/
theorem pollPass_sentinel {s : State} {raw : Sample} {rest : List Sample} (h : s.env.adc = raw :: rest)
    (hs : s.params.floatSentinel = some raw) :
    s.pollPass = ((s.dropAdc).setAbc { s.abc with abcState := .ABC_IDLE }).respond 0xFFFF#16 := by
  simp only [State.pollPass, h, if_pos hs]; rfl

/-! The pin map -/

theorem mem_pinsOf (m : PinMap) (k : PinKind) (c : Chip) (p : Pin) : (c, p) ∈ m.pinsOf k ↔ m.kind c p = k := by
  simp [PinMap.pinsOf, allPins]

/-- A contact of an encoder has its partner on the same chip (R141). -/
theorem partner_of_contact {m : PinMap} {n : Nat} (h : m.Wf n) {c : Chip} {p : Pin} {e : EncId}
    (hk : m.kind c p = .ENC_A e ∨ m.kind c p = .ENC_B e) : ∃ q, m.partner c p = some q := by
  obtain ⟨ha, hb, hc⟩ := h.2 e
  obtain ⟨xa, hxa⟩ := List.length_eq_one_iff.1 ha
  obtain ⟨xb, hxb⟩ := List.length_eq_one_iff.1 hb
  rw [hxa, hxb] at hc
  have hc' : xa.1 = xb.1 := by simpa using hc
  have hA : m.kind xa.1 xa.2 = .ENC_A e := (mem_pinsOf m _ _ _).1 (by rw [hxa]; simp)
  have hB : m.kind xb.1 xb.2 = .ENC_B e := (mem_pinsOf m _ _ _).1 (by rw [hxb]; simp)
  rcases hk with hk | hk
  · have : (c, p) ∈ m.pinsOf (.ENC_A e) := (mem_pinsOf m _ _ _).2 hk
    rw [hxa, List.mem_singleton] at this
    simp only [PinMap.partner, hk]
    rw [← Option.isSome_iff_exists, List.find?_isSome]
    refine ⟨xb.2, List.mem_finRange _, ?_⟩
    have hcc : c = xb.1 := by rw [← hc', ← this]
    simp [hcc, hB]
  · have : (c, p) ∈ m.pinsOf (.ENC_B e) := (mem_pinsOf m _ _ _).2 hk
    rw [hxb, List.mem_singleton] at this
    simp only [PinMap.partner, hk]
    rw [← Option.isSome_iff_exists, List.find?_isSome]
    refine ⟨xa.2, List.mem_finRange _, ?_⟩
    have hcc : c = xa.1 := by rw [hc', ← this]
    simp [hcc, hA]

/-- The partner of a contact is the other contact of its encoder. -/
theorem partner_eq_some {m : PinMap} {c : Chip} {p q : Pin} (h : m.partner c p = some q) :
    (∃ e, m.kind c p = .ENC_A e ∧ m.kind c q = .ENC_B e) ∨ (∃ e, m.kind c p = .ENC_B e ∧ m.kind c q = .ENC_A e) := by
  unfold PinMap.partner at h
  split at h
  · rename_i e hk; exact .inl ⟨e, hk, by simpa using List.find?_some h⟩
  · rename_i e hk; exact .inr ⟨e, hk, by simpa using List.find?_some h⟩
  · cases h

/-- An encoder's contact is on one pin. -/
theorem contact_unique {m : PinMap} {n : Nat} (h : m.Wf n) {e : EncId} {k : PinKind} (hk : k = .ENC_A e ∨ k = .ENC_B e)
    {c c' : Chip} {p p' : Pin} (h1 : m.kind c p = k) (h2 : m.kind c' p' = k) : c = c' ∧ p = p' := by
  have hl : (m.pinsOf k).length = 1 := by rcases hk with rfl | rfl <;> [exact (h.2 e).1; exact (h.2 e).2.1]
  obtain ⟨x, hx⟩ := List.length_eq_one_iff.1 hl
  have m1 := (mem_pinsOf m k c p).2 h1
  have m2 := (mem_pinsOf m k c' p').2 h2
  rw [hx, List.mem_singleton] at m1 m2
  exact Prod.mk.inj (m1.trans m2.symm)

/-! The menu -/

/-- `menu.press k` by its index: the operations `menu.press 0` to `17` have one meaning over `k`. -/
theorem exec_pressOf {k : Nat} {i : Instr} (h : pressOf k = some i) :
    ∃ hk : k < Config.maxSw, ∀ s, exec i s = .next (s.menuPress ⟨k, hk⟩) := by
  unfold pressOf at h
  split at h <;> first | (cases h; exact ⟨by decide, fun _ => rfl⟩) | cases h

/-- What a `menu.press` can do. -/
theorem menuPress_cases (k : Button) (s : State) :
    ((s.menu.flowActive = true ∨ s.params.nSw ≤ k.val) ∧ s.menuPress k = s.outOfContract) ∨
    (s.menu.flowActive = false ∧ k.val < s.params.nSw ∧ k = s.params.selectIndex ∧
      s.menu.menuStatus = .noMenusActive ∧ s.menuPress k = s.selectNoMenu) ∨
    (s.menu.flowActive = false ∧ k.val < s.params.nSw ∧
      ¬(k = s.params.selectIndex ∧ s.menu.menuStatus = .noMenusActive) ∧
      s.menuPress k = s.promote.runAction s.params.actionMap[k]) := by
  unfold State.menuPress
  by_cases hf : s.menu.flowActive = true ∨ s.params.nSw ≤ k.val
  · exact .inl ⟨hf, by rw [if_pos hf]⟩
  · have hf' := hf
    rw [not_or, Bool.not_eq_true, not_le] at hf'
    by_cases h : k = s.params.selectIndex ∧ s.menu.menuStatus = .noMenusActive
    · exact .inr (.inl ⟨hf'.1, hf'.2, h.1, h.2, by rw [if_neg hf, if_pos h]⟩)
    · exact .inr (.inr ⟨hf'.1, hf'.2, h, by rw [if_neg hf, if_neg h]⟩)

/-- What a `menu.press` of an index without a row can do. -/
theorem pressUnlisted_cases (k : Idx) (s : State) :
    (∃ h : k.toNat < Config.maxSw, s.pressUnlisted k = s.menuPress ⟨k.toNat, h⟩) ∨
    (Config.maxSw ≤ k.toNat ∧ s.pressUnlisted k = s.outOfContract) := by
  unfold State.pressUnlisted
  by_cases h : k.toNat < Config.maxSw
  · exact .inl ⟨h, dif_pos h⟩
  · exact .inr ⟨not_lt.1 h, dif_neg h⟩

theorem promote_of_inactive {s : State} (h : s.menu.menuStatus = .noMenusActive) :
    s.promote = (s.setMenu { s.menu with menuStatus := .primaryMenuActive }).showMenu := by
  simp only [State.promote, h]

theorem promote_of_active {s : State} (h : s.menu.menuStatus ≠ .noMenusActive) : s.promote = s := by
  unfold State.promote; split
  · contradiction
  · rfl

/-- After the promotion some menu is active. -/
theorem promote_active (s : State) : s.promote.menu.menuStatus ≠ .noMenusActive := by
  by_cases h : s.menu.menuStatus = .noMenusActive
  · rw [promote_of_inactive h]; simp
  · rwa [promote_of_active h]

/-- The direct actions: one `ACTION` event (R186). -/
theorem runAction_direct {a : Action} (h : a ≠ .SELECT ∧ a ≠ .MENU_UP ∧ a ≠ .MENU_DOWN ∧ a ≠ .MAP_FLOW) (s : State) :
    s.runAction a = s.emit (.ACTION a.id) := by
  cases a <;> first | rfl | simp_all

/-! Whose step a step is -/

/-- The listed turns come first, then the repeating round, again and again. -/
@[simp] theorem comingTurns_of_cons {s : State} {x : Turn} {l : List Turn} (h : s.turns = x :: l) : s.comingTurns = x :: l := by
  simp only [State.comingTurns, h]
@[simp] theorem comingTurns_of_nil {s : State} (h : s.turns = []) : s.comingTurns = s.turnCycle := by
  simp only [State.comingTurns, h]
theorem nextTurn_of_coming {s : State} {x : Turn} {l : List Turn} (h : s.comingTurns = x :: l) : s.nextTurn = x := by
  simp only [State.nextTurn, h]

theorem step_of_fg {s : State} (h : s.nextTurn = .fg) : step s = s.popTurn.foregroundStep := by
  simp only [step, h, State.takeTurn]
theorem step_of_isr {s : State} {c : Chip} {p : Pin} (h : s.nextTurn = .isr c p) : step s = s.popTurn.handlerStep c p := by
  simp only [step, h, State.takeTurn]
theorem step_of_env {s : State} {e : EnvStep} (h : s.nextTurn = .env e) : step s = .next (s.popTurn.envStep e) := by
  simp only [step, h, State.takeTurn]

/-- An operation in progress goes on in a foreground step. -/
theorem foregroundStep_of_busy {s : State} (h : s.fgMayStep = true) (hb : s.busy = true) :
    s.foregroundStep = .next s.continueOperation.afterOperation := by
  simp only [State.foregroundStep, h, hb, if_true]

/-- With the host driving, nothing follows an operation. -/
theorem afterOperation_of_host {s : State} (h : s.straps.seqEn = .host) : s.afterOperation = s := by
  simp only [State.afterOperation, h]

theorem fgMayStep_iff (s : State) : s.fgMayStep = true ↔ ∀ c : Chip, s.chip[c].isrState = .IDLE := by
  simp [State.fgMayStep, -Fin.getElem_fin]

/-- What a step of the foreground can do. -/
theorem foregroundStep_cases {s t : State} (h : s.foregroundStep = .next t) :
    t = s ∨
    (s.fgMayStep = true ∧ s.busy = true ∧ t = s.continueOperation.afterOperation) ∨
    (s.fgMayStep = true ∧ s.busy = false ∧ s.straps.seqEn = .host ∧
      ∃ w d rest, s.env.cmds = (w, d) :: rest ∧ s.acceptCommand.issue (commandRequest s.params.adcW w d) = .next t) ∨
    (s.fgMayStep = true ∧ s.busy = false ∧ s.straps.seqEn = .sequencer ∧
      ∃ q, s.sequencerRequest = some q ∧ s.issue q = .next t) ∨
    (s.fgMayStep = true ∧ s.busy = false ∧ s.straps.seqEn = .sequencer ∧ s.sequencerRequest = none ∧ t = s.phaseEnd) := by
  unfold State.foregroundStep at h
  split at h
  · rename_i hm
    split at h
    · rename_i hb; cases h; exact .inr (.inl ⟨hm, hb, rfl⟩)
    · rename_i hb
      have hb : s.busy = false := by simpa using hb
      split at h
      · rename_i hs
        split at h
        · cases h; exact .inl rfl
        · rename_i w d rest hc; exact .inr (.inr (.inl ⟨hm, hb, hs, w, d, rest, hc, h⟩))
      · rename_i hs
        split at h
        · rename_i q hq; exact .inr (.inr (.inr (.inl ⟨hm, hb, hs, q, hq, h⟩)))
        · rename_i hq; cases h; exact .inr (.inr (.inr (.inr ⟨hm, hb, hs, hq, rfl⟩)))
  · cases h; exact .inl rfl

/-- What taking up a request can do. -/
theorem issue_cases {s t : State} {q : Request} (h : s.issue q = .next t) :
    (∃ i u, q = .op i ∧ exec i (s.pushTrace (encode i).1) = .next u ∧ t = u.afterOperation) ∨
    (∃ k, q = .pressUnlisted k ∧ t = ((s.pushTrace (pressWord k)).pressUnlisted k).afterOperation) ∨
    (q = .reserved ∧ t = s.reservedWord) := by
  cases q with
  | op i =>
    simp only [State.issue, State.startOperation] at h
    split at h <;> cases h
    exact .inl ⟨i, _, rfl, ‹_›, rfl⟩
  | pressUnlisted k => cases h; exact .inr (.inl ⟨k, rfl, rfl⟩)
  | reserved => cases h; exact .inr (.inr ⟨rfl, rfl⟩)

/-- What a step of a handler can do. -/
theorem handlerStep_cases {s t : State} {c : Chip} {p : Pin} (h : s.handlerStep c p = .next t) :
    (s.handlerRunning c = true ∧ exec (.pxIsr c) (s.setReport c p) = .next t) ∨
    (s.handlerRunning c = false ∧ s.handlerEnabled c = true ∧
      exec (.pxIsr c) ((s.setReport c p).pushTrace (encode (.pxIsr c)).1) = .next t) ∨
    (s.handlerRunning c = false ∧ s.handlerEnabled c = false ∧ t = s) := by
  unfold State.handlerStep at h
  cases hr : s.handlerRunning c <;> cases he : s.handlerEnabled c <;> simp only [hr, he, if_true, Bool.false_eq_true, if_false] at h
  · cases h; exact .inr (.inr ⟨rfl, rfl, rfl⟩)
  · exact .inr (.inl ⟨rfl, rfl, h⟩)
  · exact .inl ⟨rfl, h⟩
  · exact .inl ⟨rfl, h⟩

/-- Whose step a step was, and what that agent did. -/
theorem step_cases {s t : State} (h : step s = .next t) :
    (s.nextTurn = .fg ∧ s.popTurn.foregroundStep = .next t) ∨
    (∃ c p, s.nextTurn = .isr c p ∧ s.popTurn.handlerStep c p = .next t) ∨
    (∃ e, s.nextTurn = .env e ∧ t = s.popTurn.envStep e) := by
  cases hn : s.nextTurn with
  | fg => exact .inl ⟨rfl, by rwa [step_of_fg hn] at h⟩
  | isr c p => exact .inr (.inl ⟨c, p, rfl, by rwa [step_of_isr hn] at h⟩)
  | env e => rw [step_of_env hn] at h; cases h; exact .inr (.inr ⟨e, rfl, rfl⟩)

end Sys2Proof.Machine
end

