-- ==== Sys2Proof/Laws/PerInstr.lean ====
section
/-! SUPPORT. Statements made per instruction: every well-formed instruction is read back from its own words. -/

namespace Sys2Proof.Laws

/-- A field of a word made from its three fields (R60). -/
theorem toNat_wordOf {u o a : Nat} (hu : u < 16) (ho : o < 16) (ha : a < 256) :
    (wordOf u o a).toNat = u * 4096 + o * 256 + a := by
  simp only [wordOf, BitVec.toNat_ofNat]; omega

theorem unitField_wordOf {u o a : Nat} (hu : u < 16) (ho : o < 16) (ha : a < 256) :
    unitField (wordOf u o a) = u := by
  simp only [unitField, toNat_wordOf hu ho ha]; omega

theorem opField_wordOf {u o a : Nat} (hu : u < 16) (ho : o < 16) (ha : a < 256) :
    opField (wordOf u o a) = o := by
  simp only [opField, toNat_wordOf hu ho ha]; omega

theorem argField_wordOf {u o a : Nat} (hu : u < 16) (ho : o < 16) (ha : a < 256) :
    argField (wordOf u o a) = a := by
  simp only [argField, toNat_wordOf hu ho ha]; omega

/-- The words of a well-formed instruction decode to it, for every `ADC_W`. -/
def RoundTrip.Statement (i : Instr) : Prop :=
  ∀ adcW : Nat, WellFormed adcW i = true → decode adcW (encode i).1 (encode i).2 = .ok i

theorem RoundTrip.cli : RoundTrip.Statement .cli := by intro _ _; rfl
theorem RoundTrip.sei : RoundTrip.Statement .sei := by intro _ _; rfl
theorem RoundTrip.qdecUpdate (e : EncId) (a b : Bool) : RoundTrip.Statement (.qdecUpdate e a b) := by
  intro _ _; fin_cases e <;> cases a <;> cases b <;> rfl
theorem RoundTrip.qdecProcess (e : EncId) : RoundTrip.Statement (.qdecProcess e) := by
  intro _ _; fin_cases e <;> rfl
theorem RoundTrip.abcPoll : RoundTrip.Statement .abcPoll := by intro _ _; rfl
theorem RoundTrip.abcSample : RoundTrip.Statement .abcSample := by intro _ _; rfl
theorem RoundTrip.abcClassify (v : Word) : RoundTrip.Statement (.abcClassify v) := by
  intro n h
  have hv : DinFits n v := by simpa [WellFormed] using h
  have hd : decode n 0x2200#16 v = (formatN 0x2200#16 (.abcClassify v)).bind (formatD n v) := rfl
  have hn : formatN 0x2200#16 (.abcClassify v) = .ok (.abcClassify v) := rfl
  simp only [encode, hd, hn, Except.bind, formatD, if_pos hv]
theorem RoundTrip.abcSettle : RoundTrip.Statement .abcSettle := by intro _ _; rfl
theorem RoundTrip.abcCalload (i : BitVec 5) (v : Word) : RoundTrip.Statement (.abcCalload i v) := by
  intro n h
  have hv : DinFits n v := by simpa [WellFormed] using h
  have hi := i.isLt
  have ha : i.toNat < 256 := by omega
  simp only [encode, decode, unitField_wordOf (u := 2) (o := 4) (by omega) (by omega) ha,
    opField_wordOf (u := 2) (o := 4) (by omega) (by omega) ha, formatI,
    argField_wordOf (u := 2) (o := 4) (by omega) (by omega) ha, formatD]
  have hlt : i.toNat < 32 := hi
  simp [hv, hlt]
theorem RoundTrip.abcWrload (v : Word) : RoundTrip.Statement (.abcWrload v) := by
  intro n h
  have hv : DinFits n v := by simpa [WellFormed] using h
  have hd : decode n 0x2500#16 v = (formatN 0x2500#16 (.abcWrload v)).bind (formatD n v) := rfl
  have hn : formatN 0x2500#16 (.abcWrload v) = .ok (.abcWrload v) := rfl
  simp only [encode, hd, hn, Except.bind, formatD, if_pos hv]
theorem RoundTrip.pxInit (c : Chip) : RoundTrip.Statement (.pxInit c) := by intro _ _; fin_cases c <;> rfl
theorem RoundTrip.pxIsr (c : Chip) : RoundTrip.Statement (.pxIsr c) := by intro _ _; fin_cases c <;> rfl
theorem RoundTrip.pxTake : RoundTrip.Statement .pxTake := by intro _ _; rfl
theorem RoundTrip.menuPress0 : RoundTrip.Statement .menuPress0 := by intro _ _; rfl
theorem RoundTrip.menuPress1 : RoundTrip.Statement .menuPress1 := by intro _ _; rfl
theorem RoundTrip.menuPress2 : RoundTrip.Statement .menuPress2 := by intro _ _; rfl
theorem RoundTrip.menuPress3 : RoundTrip.Statement .menuPress3 := by intro _ _; rfl
theorem RoundTrip.menuPress4 : RoundTrip.Statement .menuPress4 := by intro _ _; rfl
theorem RoundTrip.menuPress5 : RoundTrip.Statement .menuPress5 := by intro _ _; rfl
theorem RoundTrip.menuPress6 : RoundTrip.Statement .menuPress6 := by intro _ _; rfl
theorem RoundTrip.menuPress7 : RoundTrip.Statement .menuPress7 := by intro _ _; rfl
theorem RoundTrip.menuPress8 : RoundTrip.Statement .menuPress8 := by intro _ _; rfl
theorem RoundTrip.menuPress9 : RoundTrip.Statement .menuPress9 := by intro _ _; rfl
theorem RoundTrip.menuPress10 : RoundTrip.Statement .menuPress10 := by intro _ _; rfl
theorem RoundTrip.menuPress11 : RoundTrip.Statement .menuPress11 := by intro _ _; rfl
theorem RoundTrip.menuPress12 : RoundTrip.Statement .menuPress12 := by intro _ _; rfl
theorem RoundTrip.menuPress13 : RoundTrip.Statement .menuPress13 := by intro _ _; rfl
theorem RoundTrip.menuPress14 : RoundTrip.Statement .menuPress14 := by intro _ _; rfl
theorem RoundTrip.menuPress15 : RoundTrip.Statement .menuPress15 := by intro _ _; rfl
theorem RoundTrip.menuPress16 : RoundTrip.Statement .menuPress16 := by intro _ _; rfl
theorem RoundTrip.menuPress17 : RoundTrip.Statement .menuPress17 := by intro _ _; rfl
theorem RoundTrip.menuFlowkey (k : Idx) : RoundTrip.Statement (.menuFlowkey k) := by
  intro _ _
  have ha : k.toNat < 256 := k.isLt
  simp only [encode, decode, unitField_wordOf (u := 4) (o := 1) (by omega) (by omega) ha,
    opField_wordOf (u := 4) (o := 1) (by omega) (by omega) ha, argIdx,
    argField_wordOf (u := 4) (o := 1) (by omega) (by omega) ha]
  simp

end Sys2Proof.Laws
end

