-- ==== Sys2Proof/Tests/Slice0.lean ====
section
/-! SUPPORT. Tests: each operation's words decode to it, one-step tests with results from spec/95_test_vectors.md (the
vector stands in the comment), and for every statement with hypotheses a state that meets them. -/

namespace Sys2Proof.Tests

open Sys2Proof Sys2Proof.Machine

/-! ## Helpers -/

/-- The outcome is a next state with a property. -/
def nextHas (o : Host.Outcome State Fault Refusal) (p : State → Bool) : Bool :=
  match o with
  | .next t => p t
  | .fault _ => false
  | .refused _ => false

/-- The state of the vectors of spec/95_test_vectors.md, sections 2.1 to 2.5: after reset. -/
def base : State := State.reset

/-- The table of program P2 loaded, `smoothed` = `v`, the conversion results `l` supplied. -/
def analog (v : Sample) (l : List Sample) : State :=
  { base with
    abc := { base.abc with
      smoothed := v, cal := base.env.calStore, calValid := Vector.replicate 32 true, wiggleRoom := 20, wrValid := true }
    env := { base.env with adc := l } }

/-- Decoder 2 in state `q` with accumulator `v`. -/
def decoder (q : DecState) (v : Int) : State :=
  { base with enc := base.enc.set 2 { decodeState := q, acc := v } }

/-- Menu registers `(st, m, sec)`. -/
def menu (st : MenuStatus) (m sec : Idx) : State :=
  { base with menu := { base.menu with menuStatus := st, mainMenuIndex := m, secondaryMenuIndex := sec } }

/-- During the extended flow. -/
def inFlow : State := { base with menu := { base.menu with menuStatus := .primaryMenuActive, flowActive := true } }

/-- `EXPANDER` mode, chip 1 configured, interrupts enabled, handler 1 in state `st` at pin `p`, `pend[1]` = `w`. -/
def chip1 (st : IsrState) (p : Pin) (w : Word) : State :=
  { base with
    chip := base.chip.set 1 { base.chip[1] with pxConfigured := true, isrState := st, curPin := p, pend := w }
    sys := { base.sys with irqEnable := true }
    straps := { base.straps with acqMode := .EXPANDER } }

/-- The host presents a command. -/
def presents (w d : Word) : State := { base with env := { base.env with cmds := [(w, d)] } }

/-- The sequencer drives the foreground, in phase `p`, with `n` foreground turns to come. -/
def sequencer (m : AcqMode) (p : FgPhase) (n : Nat) : State :=
  { base with
    straps := { base.straps with seqEn := .sequencer, acqMode := m }
    sys := { base.sys with fgPhase := p }
    turns := List.replicate n .fg }

/-- It is the turn of `t`. -/
def turn (t : Turn) (s : State) : State := { s with turns := [t] }

/-! ## WellFormed: an ill-formed term for each check (R72) -/

theorem test_wellformed_classify : WellFormed 10 (.abcClassify 1024) = false ∧ WellFormed 10 (.abcClassify 1023) = true := by decide
theorem test_wellformed_calload : WellFormed 10 (.abcCalload 3 0x8000) = false ∧ WellFormed 10 (.abcCalload 3 1023) = true := by decide
theorem test_wellformed_wrload : WellFormed 10 (.abcWrload 0xFFFF) = false ∧ WellFormed 10 (.abcWrload 0) = true := by decide

/-! ## Decoding: words written out from R60, R61 and R73 as `UNIT`, `OP`, `ARG` -/

theorem test_decode_cli : decode 10 0b0000000100000000#16 0 = .ok .cli := by decide
theorem test_decode_sei : decode 10 0b0000001000000000#16 0 = .ok .sei := by decide
/-- E1: `0x1006` is `qdec.update 1, 0, 1`: pinA in bit 0, pinB in bit 1, `e` in bits 3:2. -/
theorem test_decode_qdec_update : decode 10 0b0001000000000110#16 0 = .ok (.qdecUpdate 1 false true) := by decide
theorem test_decode_qdec_process : decode 10 0b0001000100000011#16 0 = .ok (.qdecProcess 3) := by decide
theorem test_decode_abc_poll : decode 10 0b0010000000000000#16 0 = .ok .abcPoll := by decide
theorem test_decode_abc_sample : decode 10 0b0010000100000000#16 0 = .ok .abcSample := by decide
theorem test_decode_abc_classify : decode 10 0b0010001000000000#16 805 = .ok (.abcClassify 805) := by decide
theorem test_decode_abc_settle : decode 10 0b0010001100000000#16 0 = .ok .abcSettle := by decide
/-- E1: `0x2405`, `din = 0x01C2` is `abc.calload 5, 450`. -/
theorem test_decode_abc_calload : decode 10 0b0010010000000101#16 0x01C2 = .ok (.abcCalload 5 450) := by decide
theorem test_decode_abc_wrload : decode 10 0b0010010100000000#16 0x0014 = .ok (.abcWrload 20) := by decide
theorem test_decode_px_init : decode 10 0b0011000000000001#16 0 = .ok (.pxInit 1) := by decide
theorem test_decode_px_isr : decode 10 0b0011000100000001#16 0 = .ok (.pxIsr 1) := by decide
theorem test_decode_px_take : decode 10 0b0011001000000000#16 0 = .ok .pxTake := by decide
theorem test_decode_menu_press_low :
    decode 10 0b0100000000000000#16 0 = .ok .menuPress0 ∧ decode 10 0b0100000000000001#16 0 = .ok .menuPress1 ∧
    decode 10 0b0100000000000010#16 0 = .ok .menuPress2 ∧ decode 10 0b0100000000000011#16 0 = .ok .menuPress3 ∧
    decode 10 0b0100000000000100#16 0 = .ok .menuPress4 ∧ decode 10 0b0100000000000101#16 0 = .ok .menuPress5 ∧
    decode 10 0b0100000000000110#16 0 = .ok .menuPress6 ∧ decode 10 0b0100000000000111#16 0 = .ok .menuPress7 ∧
    decode 10 0b0100000000001000#16 0 = .ok .menuPress8 := by decide
theorem test_decode_menu_press_high :
    decode 10 0b0100000000001001#16 0 = .ok .menuPress9 ∧ decode 10 0b0100000000001010#16 0 = .ok .menuPress10 ∧
    decode 10 0b0100000000001011#16 0 = .ok .menuPress11 ∧ decode 10 0b0100000000001100#16 0 = .ok .menuPress12 ∧
    decode 10 0b0100000000001101#16 0 = .ok .menuPress13 ∧ decode 10 0b0100000000001110#16 0 = .ok .menuPress14 ∧
    decode 10 0b0100000000001111#16 0 = .ok .menuPress15 ∧ decode 10 0b0100000000010000#16 0 = .ok .menuPress16 ∧
    decode 10 0b0100000000010001#16 0 = .ok .menuPress17 := by decide
/-- E1: `0x4111` is `menu.flowkey 17`, `0x41FF` is `menu.flowkey NONE`. -/
theorem test_decode_menu_flowkey :
    decode 10 0b0100000100010001#16 0 = .ok (.menuFlowkey 17) ∧ decode 10 0b0100000111111111#16 0 = .ok (.menuFlowkey (-1)) := by
  decide
/-- E1: the reserved words, by the reason. -/
theorem test_decode_reserved :
    decode 10 0x0000 0 = .error .reservedOp ∧ decode 10 0x0300 0 = .error .reservedOp ∧ decode 10 0x0101 0 = .error .nonzeroArg ∧
    decode 10 0x1010 0 = .error .nonzeroArg ∧ decode 10 0x1104 0 = .error .nonzeroArg ∧ decode 10 0x2001 0 = .error .nonzeroArg ∧
    decode 10 0x2420 0 = .error .nonzeroArg ∧ decode 10 0x2600 0 = .error .reservedOp ∧ decode 10 0x2200 0x0400 = .error .dinTooWide ∧
    decode 10 0x3002 0 = .error .nonzeroArg ∧ decode 10 0x3300 0 = .error .reservedOp ∧ decode 10 0x4200 0 = .error .reservedOp ∧
    decode 10 0x5000 0 = .error .reservedUnit ∧ decode 10 0xF123 0 = .error .reservedUnit := by decide
/-- E1: `0x4012` and `0x40FF` are out of contract, not reserved; `0x3100` is reserved on the command port. -/
theorem test_request :
    commandRequest 10 0x4012 0 = .pressUnlisted 18 ∧ commandRequest 10 0x40FF 0 = .pressUnlisted (-1) ∧
    commandRequest 10 0x3100 0 = .reserved ∧ commandRequest 10 0x4011 0 = .op .menuPress17 := by decide

/-! ## One step each -/

/-- E2. -/
theorem test_sei : nextHas (exec .sei base) (fun t => t.sys.irqEnable) = true := by decide
/-- E2: `cli, cli, sei` gives 1. -/
theorem test_cli : nextHas (exec .cli { base with sys := { base.sys with irqEnable := true } })
    (fun t => !t.sys.irqEnable) = true := by decide
/-- Q15: from (`CW_FINAL`, 0), `qdec.update 2, 0, 0` gives (`START`, 1). -/
theorem test_qdec_update_counts : nextHas (exec (.qdecUpdate 2 false false) (decoder .CW_FINAL 0))
    (fun t => t.enc[2] == { decodeState := .START, acc := 1 }) = true := by decide
/-- Q16: at -2147483647 a decrement stays. -/
theorem test_qdec_update_saturates : nextHas (exec (.qdecUpdate 2 false false) (decoder .CCW_FINAL (-2147483647)))
    (fun t => t.enc[2].acc == -2147483647) = true := by decide
/-- Q17: `acc` = -3 returns `CCW` (`dout` = 2), leaves 0 and the state. -/
theorem test_qdec_process : nextHas (exec (.qdecProcess 2) (decoder .CW_NEXT (-3)))
    (fun t => t.enc[2] == { decodeState := .CW_NEXT, acc := 0 } && t.out.responses == [2]) = true := by decide
/-- Q17: `acc` = 5 returns `CW` once; Q18: with interrupts enabled the first micro-step only reads. -/
theorem test_qdec_process_unmasked : nextHas (exec (.qdecProcess 2) { decoder .START 5 with sys := { base.sys with irqEnable := true } })
    (fun t => t.enc[2].acc == 5 && t.sys.fgTmp == 5 && t.out.responses == []) = true := by decide
/-- A7: the pass from 833 to 830 is stable; `Classify(830)` is `NONE` with the table of P2. -/
theorem test_abc_poll : nextHas (exec .abcPoll (analog 833 [805]))
    (fun t => t.abc.smoothed == 830 && t.abc.stable && t.out.responses == [0xFFFF]) = true := by decide
/-- P2: the sixth poll gives 818 and returns 2. -/
theorem test_abc_poll_hit : nextHas (exec .abcPoll (analog 820 [805]))
    (fun t => t.abc.smoothed == 818 && t.out.responses == [2]) = true := by decide
/-- A3: from 1023, conversion 805 gives 1001, not stable, `dout` = 0x03E9. -/
theorem test_abc_sample : nextHas (exec .abcSample (analog 1023 [805]))
    (fun t => t.abc.smoothed == 1001 && t.abc.smoothedPrev == 1023 && !t.abc.stable && t.out.responses == [0x03E9]) = true := by
  decide
/-- A4: from 500, d = -31 gives 496, not stable. -/
theorem test_abc_sample_floor : nextHas (exec .abcSample (analog 500 [469]))
    (fun t => t.abc.smoothed == 496 && !t.abc.stable) = true := by decide
/-- A1's edge with the table of P2: 819 is in the window of 800 (index 2), 820 in none. -/
theorem test_abc_classify_edge :
    nextHas (exec (.abcClassify 819) (analog 0 [])) (fun t => t.out.responses == [2]) = true ∧
    nextHas (exec (.abcClassify 820) (analog 0 [])) (fun t => t.out.responses == [0xFFFF]) = true := by decide
/-- A2: from reset `abc.classify 805` returns `NONE` and sets `fault` = 2. -/
theorem test_abc_classify_unloaded : nextHas (exec (.abcClassify 805) base)
    (fun t => t.out.responses == [0xFFFF] && t.sys.fault == 2) = true := by decide
theorem test_abc_settle : nextHas (exec .abcSettle base) (fun t => t.abc.abcState == .ABC_SETTLING) = true := by decide
/-- A6: `abc.calload 17, 50` loads entry 17. -/
theorem test_abc_calload : nextHas (exec (.abcCalload 17 50) base) (fun t => t.abc.cal[17] == 50 && t.abc.calValid[17]) = true := by
  decide
/-- A6: `abc.calload 18, 5` sets `fault` = 4. -/
theorem test_abc_calload_outside : nextHas (exec (.abcCalload 18 5) base) (fun t => t.sys.fault == 4 && t.abc == base.abc) = true := by
  decide
theorem test_abc_wrload : nextHas (exec (.abcWrload 20) base) (fun t => t.abc.wiggleRoom == 20 && t.abc.wrValid) = true := by
  decide
/-- P3: an acknowledged `px.init 0`. -/
theorem test_px_init : nextHas (exec (.pxInit 0) base) (fun t => t.chip[0].pxConfigured && t.out.events == []) = true := by decide
/-- R142's example: `ack[1]` = 0. -/
theorem test_px_init_fails : nextHas (exec (.pxInit 1) { base with env := { base.env with ack := #v[true, false] } })
    (fun t => !t.chip[1].pxConfigured && t.chip[1].pxInitFail && t.out.events == [.INIT_FAIL 1]) = true := by decide
/-- P3: `FETCH` on chip 1 with pin 12 pending. -/
theorem test_px_isr_fetch : nextHas (exec (.pxIsr 1) (chip1 .FETCH 0 0x1000))
    (fun t => t.chip[1].curPin == 12 && t.chip[1].pend == 0 && t.chip[1].isrState == .READ) = true := by decide
/-- P5: reading pin 1 of chip 1 at level 0 writes button 17. -/
theorem test_px_isr_read : nextHas (exec (.pxIsr 1)
      { chip1 .READ 1 0 with env := { base.env with level := #v[0xFFFF, 0x00FD] } })
    (fun t => t.pendingButton == 17 && t.chip[1].isrState == .FETCH) = true := by decide
/-- R153's example: `pendingButton` = 5. -/
theorem test_px_take : nextHas (exec .pxTake { base with pendingButton := 5 })
    (fun t => t.pendingButton == 0xFF && t.out.responses == [5]) = true := by decide
/-- P3: nothing pending returns `NONE` (`dout` = 0xFFFF). -/
theorem test_px_take_none : nextHas (exec .pxTake base) (fun t => t.out.responses == [0xFFFF]) = true := by decide
/-- P4: select from reset gives the notice and (`NO_MENUS_ACTIVE`, 0, 0). -/
theorem test_menu_press0 : nextHas (exec .menuPress0 base)
    (fun t => t.menu.secondaryMenuIndex == 0 && t.menu.menuStatus == .noMenusActive && t.out.events == [.NOTICE_NO_MENU]) = true := by
  decide
/-- M5b: `ret` = 0xF9 is stored unchecked. -/
theorem test_menu_press0_call : nextHas (exec .menuPress0
      { menu .primaryMenuActive 0 (-1) with env := { base.env with ret := [0xF9] } })
    (fun t => t.menu.secondaryChoice.toInt == -7 && t.menu.menuStatus == .secondaryMenuActive) = true := by decide
/-- P4: menu up wraps from 4 to 0 in `SECONDARY_MENU_ACTIVE`. -/
theorem test_menu_press1 : nextHas (exec .menuPress1 (menu .secondaryMenuActive 4 (-1)))
    (fun t => t.out.events == [.SHOW_MENU 0 .secondaryMenuActive]) = true := by decide
/-- P4: menu down wraps from 0 to 4. -/
theorem test_menu_press4 : nextHas (exec .menuPress4 (menu .primaryMenuActive 0 (-1)))
    (fun t => t.menu.mainMenuIndex == 4) = true := by decide
/-- M16: the direct actions from (`PRIMARY_MENU_ACTIVE`, 1, -1). -/
theorem test_menu_press_direct :
    ([(Instr.menuPress2, 2#5), (.menuPress3, 3), (.menuPress5, 5), (.menuPress6, 6), (.menuPress7, 7), (.menuPress8, 8),
      (.menuPress9, 9), (.menuPress10, 10), (.menuPress11, 11), (.menuPress12, 12), (.menuPress13, 13),
      (.menuPress14, 14), (.menuPress15, 15), (.menuPress16, 16)].all fun x =>
        nextHas (exec x.1 (menu .primaryMenuActive 1 (-1))) fun t => t.out.events == [.ACTION x.2]) = true := by decide
/-- M9: map flow from reset: `SHOW_MENU(0, 1)` (`evt` 0x02, `evt_arg` 0x0100), `FLOW_OPEN` (0x06). -/
theorem test_menu_press17 : nextHas (exec .menuPress17 base)
    (fun t => t.menu.flowActive && t.out.events.map Event.code == [0x02, 0x06] &&
      t.out.events.map Event.arg == [some 0x0100, none]) = true := by decide
/-- M12: `menu.flowkey 17` closes the flow; M11: `menu.flowkey 3` is handed on. -/
theorem test_menu_flowkey :
    nextHas (exec (.menuFlowkey 17) inFlow) (fun t => !t.menu.flowActive && t.out.events == [.FLOW_CLOSE]) = true ∧
    nextHas (exec (.menuFlowkey 3) inFlow) (fun t => t.menu.flowActive && t.out.events == [.FLOW_KEY 3]) = true := by decide
/-- M13: outside the flow it is refused. -/
theorem test_menu_flowkey_outside : nextHas (exec (.menuFlowkey 17) base) (fun t => t.sys.fault == 4 && t.out.events == []) = true := by
  decide
/-- P3: the press of button 5: `pend[0]` = 0x0020, `irqLatch[0]` = 1, `irq_n[0]` = 0. -/
theorem test_env_pin : nextHas (step (turn (.env (.pin 0 5 false))
      { base with chip := base.chip.set 0 { base.chip[0] with pxConfigured := true } }))
    (fun t => t.chip[0].pend == 0x0020 && t.chip[0].irqLatch && !t.irqN 0) = true := by decide
/-- R271: the outputs after reset. -/
theorem test_reset_outputs : State.reset.irqN 0 = true ∧ State.reset.activity 0 = false ∧ State.reset.cmdReady = true := by
  decide
/-- What a decoder with the default table has seen of the cycles in each state (R97). -/
def seenOnThePath : DecState → Nat → Nat → Bool
  | .START, _, _ => true
  | .CW_BEGIN, k, _ => k == 1 || k == 2 || k == 3 || k == 4
  | .CW_NEXT, k, _ => k == 2 || k == 3 || k == 4
  | .CW_FINAL, k, _ => k == 3 || k == 4
  | .CCW_BEGIN, _, k => k == 1 || k == 2 || k == 3 || k == 4
  | .CCW_NEXT, _, k => k == 2 || k == 3 || k == 4
  | .CCW_FINAL, _, k => k == 3 || k == 4
/-- The default table has the properties of R92. -/
theorem test_default_table : defaultQTable.Wf where
  flagged := by decide
  noEarlyCount l := countsOnlyCycles_of_invariant defaultQTable seenOnThePath (by intro q; cases q <;> decide) l
    .START 0 0 rfl
  cwOnce := by decide
  ccwOnce := by decide
/-- R92 P3, P5: the default table with `START` -11-> `CW_FINAL` counts on 11, 00 and is refused. -/
theorem test_early_count_refused :
    ¬QTable.Wf (defaultQTable.set 0 #v[.to .START, .to .CW_BEGIN, .to .CCW_BEGIN, .to .CW_FINAL]) := by
  intro h; exact absurd (h.noEarlyCount [3, 0]) (by decide)
/-- The default parameters meet R5, R92, R141 and R182. -/
theorem test_default_params : defaultParams.Wf where
  widths := by decide
  qtable := test_default_table
  pinMap := by decide
  select := by decide
  flowTrigger := by decide
  samples := by decide
/-- The host's form: a word placed for the next step is run by it. -/
theorem test_withFetchWord : nextHas (step (State.reset.withFetchWord 16 0x2411))
    (fun t => t.out.trace == [0x2411] && t.abc.calValid[17]) = true := by decide

/-! ## Witnesses: the hypotheses of the statements are met -/

theorem witness_EncodedInstructionDecodesBack :
    WellFormed 10 (.abcCalload 31 1023) = true ∧ WellFormed 10 (.menuFlowkey 0x80) = true := by decide
theorem witness_DecodedInstructionHasItsWord : decode 10 0x241F 1023 = .ok (.abcCalload 31 1023) := by decide
theorem witness_OpcodeRowsAreDisjoint :
    (0x4100#16, 0xFF00#16) ∈ opcodeRows ∧ Row.selects (0x4100#16, 0xFF00#16) 0x41FF = true := by decide
theorem witness_ReservedWordSetsOnlyCommandFault :
    (presents 0x3101 0).Accepting 0x3101 0 ∧ commandRequest 10 0x3101 0 = .reserved := by unfold State.Accepting; decide
/-- Both sides of the clauses: a word of no row, `px.isr`, a wide data operand. -/
theorem witness_ReservedWordClauses :
    commandRequest 10 0x0000 0 = .reserved ∧ commandRequest 10 0x3FFF 0 = .reserved ∧ commandRequest 10 0x4200 0 = .reserved ∧
    commandRequest 10 0x3100 0 = .reserved ∧ commandRequest 10 0x2200 1024 = .reserved ∧
    commandRequest 10 0x241F 0x8000 = .reserved ∧ commandRequest 10 0x2500 1024 = .reserved := by decide
theorem witness_UnreservedBoundaries :
    commandRequest 10 0x4011 0 = .op .menuPress17 ∧ commandRequest 10 0x4012 0 = .pressUnlisted 18 ∧
    commandRequest 10 0x4100 0 = .op (.menuFlowkey 0) ∧ commandRequest 10 0x2200 1023 = .op (.abcClassify 1023) ∧
    commandRequest 10 0x241F 1023 = .op (.abcCalload 31 1023) := by decide
theorem witness_StepRunsTheAcceptedInstruction :
    (presents 0x0200 0).Accepting 0x0200 0 ∧ decode 10 0x0200 0 = .ok .sei ∧ (∀ c, Instr.sei ≠ .pxIsr c) := by
  unfold State.Accepting; decide
theorem witness_StepRunsTheSequencedOperation :
    (sequencer .EXPANDER .PH_TAKE 1).nextTurn = .fg ∧ (sequencer .EXPANDER .PH_TAKE 1).fgMayStep = true ∧
    (sequencer .EXPANDER .PH_TAKE 1).busy = false ∧ (sequencer .EXPANDER .PH_TAKE 1).straps.seqEn = .sequencer ∧
    (sequencer .EXPANDER .PH_TAKE 1).sequencerRequest = some (.op .cli) ∧
    nextHas (exec .cli ((sequencer .EXPANDER .PH_TAKE 1).popTurn.pushTrace (encode .cli).1)) (fun _ => true) = true := by
  decide
/-- A state whose handler 1 may enter, with pin 12 pending. -/
def enterable : State :=
  { chip1 .IDLE 0 0x1000 with
    chip := (chip1 .IDLE 0 0x1000).chip.set 1 { (chip1 .IDLE 0 0x1000).chip[1] with irqLatch := true } }
/-- The same in `ANALOG` mode, as a host can make it. -/
def enterableAnalog : State := { enterable with straps := { enterable.straps with acqMode := .ANALOG } }
/-- R23: after a host's `px.init` and `sei` in `ANALOG` mode a pending change enters no handler. -/
theorem test_no_handler_in_analog :
    nextHas (step (turn (.isr 1 0) enterableAnalog)) (fun t => t.chip == enterableAnalog.chip) = true ∧
    nextHas (step enterableAnalog) (fun t => t.chip[1].isrState == .IDLE && t.chip[1].irqLatch) = true := by decide
theorem witness_HandlerTurnRunsPxIsr :
    (turn (.isr 1 15) (chip1 .READ 12 0)).nextTurn = .isr 1 15 ∧
    (turn (.isr 1 15) (chip1 .READ 12 0)).chip[1].isrState ≠ .IDLE ∧
    (turn (.isr 1 0) enterable).nextTurn = .isr 1 0 ∧ enterable.chip[1].isrState = .IDLE ∧
    enterable.chip[1].irqLatch = true ∧ enterable.chip[1].pxConfigured = true ∧ enterable.sys.irqEnable = true ∧
    enterable.straps.acqMode = .EXPANDER ∧
    (turn (.isr 1 0) enterableAnalog).nextTurn = .isr 1 0 ∧ enterableAnalog.chip[1].isrState = .IDLE ∧
    enterableAnalog.straps.acqMode = .ANALOG ∧
    (turn (.isr 0 0) base).nextTurn = .isr 0 0 ∧ base.chip[0].isrState = .IDLE ∧ base.chip[0].irqLatch = false := by decide
theorem witness_ForegroundWaitsForHandlers :
    (turn .fg (chip1 .FETCH 0 0)).nextTurn = .fg ∧ (turn .fg (chip1 .FETCH 0 0)).chip[1].isrState ≠ .IDLE := by decide
/-- Handler 1 finds nothing more and returns. -/
theorem witness_HandlerReturns :
    let s := turn (.isr 1 0) (chip1 .FETCH 0 0)
    nextHas (step s) (fun t => t.chip[1].isrState == .IDLE) = true ∧ s.nextTurn ≠ .env .reset ∧
    s.chip[1].isrState ≠ .IDLE := by decide
/-- Handler 1 in `FETCH`, while the environment turns pin `p` of chip 1 back and forth. -/
def restless (p : Pin) : State :=
  let s := chip1 .FETCH 0 0
  { s with turnCycle := serviceRound s.params.pinMap 1 p (!s.pinLevel 1 p) ++ serviceRound s.params.pinMap 1 p (s.pinLevel 1 p) }
/-- A switch, an unused pin, both kinds of contact. -/
theorem witness_HandlerNeedNotReturn : ∀ p ∈ [(0 : Pin), 2, 8, 15], let s := restless p
    s.params.pinMap.Wf s.params.nSw ∧ s.chip[1].pxConfigured = true ∧ s.chip[1].isrState = .FETCH ∧ s.turns = [] ∧
    s.turnCycle = serviceRound s.params.pinMap 1 p (!s.pinLevel 1 p) ++ serviceRound s.params.pinMap 1 p (s.pinLevel 1 p) := by
  decide
/-- R156: after a whole round and one turn of the next, handler 1 has a pin to serve again. -/
theorem test_turns_repeat :
    nextHas (core.run 9 (restless 8)) (fun t => t.chip[1].isrState == .FETCH && t.chip[1].pend == 0x0100#16) = true := by decide
/-- A real change of a configured pin (with and without a pending one), no change, and an unconfigured chip. -/
theorem witness_PinChangeIsDetected :
    (turn (.env (.pin 1 15 true)) (chip1 .IDLE 0 0)).nextTurn = .env (.pin 1 15 true) ∧
    (chip1 .IDLE 0 0).pinLevel 1 15 ≠ true ∧ (chip1 .IDLE 0 0).chip[1].pxConfigured = true ∧
    (chip1 .IDLE 0 0).chip[1].pend = 0 ∧ (chip1 .IDLE 0 1).chip[1].pend ≠ 0 ∧
    (chip1 .IDLE 0 0).pinLevel 1 0 = true ∧ (chip1 .IDLE 0 0).chip[0].pxConfigured = false := by decide
theorem witness_ResetGivesTheResetValues : (turn (.env .reset) (chip1 .READ 3 7)).nextTurn = .env .reset := by decide
theorem witness_EveryStepGoesOn : (chip1 .PARTNER 12 0).PartnerReady := by unfold State.PartnerReady; decide
theorem witness_ParametersAndStrapsAreConstant :
    nextHas (step (presents 0x4002 0)) (fun _ => true) = true ∧ (presents 0x4002 0).nextTurn ≠ .env .reset ∧
    nextHas (step (turn (.env .reset) inFlow)) (fun _ => true) = true := by decide
theorem witness_HandlersStayIdleMaskedOrAnalog :
    base.SectionQuiet ∧ base.sys.irqEnable = false ∧ nextHas (step (presents 0x0200 0)) (fun t => t.sys.irqEnable) = true ∧
    (chip1 .READ 12 0).SectionQuiet ∧ enterableAnalog.AnalogQuiet ∧ enterableAnalog.straps.acqMode = .ANALOG ∧
    nextHas (step enterableAnalog) (fun _ => true) = true := by
  unfold State.SectionQuiet State.AnalogQuiet; decide
theorem witness_FaultsAreSticky :
    let s := { presents 0x3001 0 with
      sys := { base.sys with fault := 7 }, chip := base.chip.set 1 { base.chip[1] with pxInitFail := true } }
    nextHas (step s) (fun t => t.sys.fault == 7 && t.chip[1].pxInitFail) = true ∧ s.nextTurn ≠ .env .reset := by decide
theorem witness_OutOfContractIsRefused :
    pressOf 0 = some .menuPress0 ∧ pressOf 17 = some .menuPress17 ∧ inFlow.menu.flowActive = true ∧
    base.menu.flowActive = false ∧ base.params.nSw ≤ (18#8).toNat ∧ base.params.nSw ≤ (18#5).toNat ∧ DinFits 10 1023 ∧
    (presents 0x4012 0).Accepting (0x4000#16 ||| (18#8).setWidth 16) 0 ∧
    (presents 0x40FF 0).Accepting (0x4000#16 ||| (0xFF#8).setWidth 16) 0 := by unfold State.Accepting; decide
theorem witness_WideDataOperandIsReserved : 2 ^ base.params.adcW ≤ (1024#16).toNat := by decide
/-- Both flags and none occur, at the bounds of the accumulator too (Q15, Q16). -/
theorem witness_QdecUpdateLooksUpTheTable :
    (defaultQTable.entry .CW_FINAL (sampleOf false false)).dirCW = true ∧
    (defaultQTable.entry .CW_FINAL (sampleOf false false)).dirCCW = false ∧
    (defaultQTable.entry .CCW_FINAL (sampleOf false false)).dirCCW = true ∧
    (defaultQTable.entry .CCW_FINAL (sampleOf false false)).dirCW = false ∧
    (defaultQTable.entry .START (sampleOf true false)).dirCW = false ∧
    (decoder .CW_FINAL 2147483647).enc[2].acc = 2147483647 := by decide
theorem witness_QdecProcessDrains :
    base.sys.irqEnable = false ∧ (chip1 .IDLE 0 0).sys.irqEnable = true ∧
    let s := { turn .fg (decoder .START 1) with prog := { base.prog with micro := .processClear 2 } }
    s.nextTurn = .fg ∧ s.fgMayStep = true ∧ s.straps.seqEn = .host ∧ s.prog.micro = .processClear 2 := by decide
theorem witness_SecondDrainReturnsNone :
    nextHas (drain 2 (decoder .CW_NEXT 5)) (fun t => t.enc[2].acc == 0) = true ∧
    nextHas (drain 2 { decoder .CW_NEXT 5 with sys := { base.sys with irqEnable := true } })
      (fun t => t.out.responses == [1]) = true := by decide
/-- With accumulators at both bounds. -/
theorem witness_RegistersStayInTheirWidths :
    ({ base with enc := (decoder .CW_FINAL 2147483647).enc.set 3 { decodeState := .CCW_FINAL, acc := -2147483647 } } :
      State).RegistersFit where
  widths := by decide
  smoothInit := by decide
  acc := by unfold State.AccSymmetric accMax; decide
  fgTmp := by decide
  smoothed := by decide
  smoothedPrev := by decide
  cal := by decide
  wiggleRoom := by decide
  adc := by intro v hv; cases hv
  calStore := by decide
  wiggleStore := by decide
theorem witness_RegistersStayInTheirWidths_step :
    nextHas (step { decoder .CW_FINAL 2147483647 with env := { base.env with cmds := [(0x1008, 0)] } })
      (fun t => t.enc[2].acc == 2147483647) = true := by decide
theorem witness_RepeatedSampleNeverCounts :
    (DecState.CW_BEGIN, (2 : Fin 4)) ∈ [(DecState.CW_BEGIN, (2 : Fin 4)), (.CW_FINAL, 1), (.CCW_BEGIN, 1), (.CCW_FINAL, 2)] ∧
    (DecState.START, (0 : Fin 4)) ∉ [(DecState.CW_BEGIN, (2 : Fin 4)), (.CW_FINAL, 1), (.CCW_BEGIN, 1), (.CCW_FINAL, 2)] := by
  decide
theorem witness_FullCycleReturnsItsDirectionOnce :
    base.params.qtable = defaultQTable ∧ 2 ≤ base.params.accW ∧ base.enc[2] = { decodeState := .START, acc := 0 } := by decide
/-- Q1 and Q2. -/
theorem witness_CountNeedsAFullCycle :
    base.params.qtable.Wf ∧ base.enc[2] = { decodeState := .START, acc := 0 } ∧
    nextHas (runUpdates 2 [(false, false), (true, false), (true, true), (false, true), (false, false)] base)
      (fun t => decide (0 < t.enc[2].acc)) = true ∧
    nextHas (runUpdates 2 [(false, false), (false, true), (true, true), (true, false), (false, false)] base)
      (fun t => decide (t.enc[2].acc < 0)) = true :=
  ⟨test_default_table, by decide⟩
theorem witness_ExchangedContactsMirrorTheDecoder :
    base.params.qtable = defaultQTable ∧ (decoder .CCW_FINAL (-7)).params.accW = (decoder .CW_FINAL 7).params.accW ∧
    (decoder .CCW_FINAL (-7)).enc[2].decodeState = (decoder .CW_FINAL 7).enc[2].decodeState.mirror ∧
    (decoder .CCW_FINAL (-7)).enc[2].acc = -(decoder .CW_FINAL 7).enc[2].acc ∧
    nextHas (runUpdates 2 [(false, false), (true, false)] (decoder .CW_FINAL 7)) (fun t => t.enc[2].acc == 8) = true := by
  decide
theorem witness_SmoothingStaysBetweenItsOperands : SampleFits 10 1023 ∧ SampleFits 10 0 := by decide
/-- A4: d = -30 and 39 are stable, -31 and 40 are not. -/
theorem witness_StableExactlyOnSmallSteps :
    stableFlag (smoothStep 470 500) 500 = true ∧ stableFlag (smoothStep 539 500) 500 = true ∧
    stableFlag (smoothStep 469 500) 500 = false ∧ stableFlag (smoothStep 540 500) 500 = false := by decide
theorem witness_AbcSampleFiltersOneConversion :
    (analog 500 [1023, 3]).env.adc = 1023 :: [3] ∧ (analog 500 []).env.adc = [] ∧
    let s := { turn .fg (analog 500 [0]) with prog := { base.prog with micro := .sampleWait } }
    s.nextTurn = .fg ∧ s.fgMayStep = true ∧ s.straps.seqEn = .host ∧ s.prog.micro = .sampleWait ∧ s.env.adc ≠ [] := by
  decide
/-- With the sentinel 7: a sentinel, a stable pass (d = 39), an unstable one (d = 40), none. -/
theorem witness_AbcPollTakesItsFirstPass :
    let s (l : List Sample) := { analog 500 l with params := { defaultParams with floatSentinel := some 7 } }
    (500 = if (s []).params.abcReinit then (s []).params.smoothInit else (s []).abc.smoothed) ∧
    (s [7]).env.adc = 7 :: [] ∧ (s [7]).params.floatSentinel = some 7 ∧
    (s [539]).params.floatSentinel ≠ some 539 ∧ (s [539]).abc.calibrated 18 = true ∧
    stableFlag (smoothStep 539 500) 500 = true ∧ stableFlag (smoothStep 540 500) 500 = false ∧ (s []).env.adc = [] := by decide
/-- Two passes: 504, not stable, then 503, stable; and one unstable pass before the sentinel 7, and none. -/
theorem witness_PollRunsToItsStableEstimate :
    let s := { analog 500 [540, 500, 9] with turns := [.fg] }
    s.env.adc = [540, 500] ++ [9] ∧ StabilisesOn 500 [540, 500] ∧ s.params.floatSentinel = none ∧
    s.abc.calibrated 18 = true ∧ s.fgMayStep = true ∧ s.straps.seqEn = .host ∧ s.prog.micro = .idle ∧
    s.turns = List.replicate ([(540 : Sample), 500].length - 1) .fg ∧ s.params.abcReinit = false ∧ s.abc.smoothed = 500 ∧
    let u := { analog 500 [540, 7, 9] with params := { defaultParams with floatSentinel := some 7 }, turns := [.fg] }
    u.params.floatSentinel = some 7 ∧ u.params.floatSentinel ≠ some 540 ∧ u.env.adc = [540] ++ 7 :: [9] ∧
    NeverStable 500 [540] ∧ u.turns = List.replicate [(540 : Sample)].length .fg ∧ NeverStable 500 [] := by
  unfold StabilisesOn StabilisesOn NeverStable NeverStable; decide
/-- Above the idle threshold 920, at it, inside a window, in none. -/
theorem witness_ClassifyReturnsTheLowestMatch :
    let a := (analog 0 []).abc
    a.wrValid = true ∧ (∀ i : Button, a.calValid[i] = true) ∧ a.cal[0].toNat + a.wiggleRoom.toNat < (921#16).toNat ∧
    ¬a.cal[0].toNat + a.wiggleRoom.toNat < (920#16).toNat ∧ (1023#16).toNat < 1024 ∧
    ((819 : Int) - a.cal[2].toNat).natAbs < a.wiggleRoom.toNat ∧
    (∀ j : Button, j < 2 → ¬((819 : Int) - a.cal[j].toNat).natAbs < a.wiggleRoom.toNat) ∧
    (∀ j : Button, ¬((820 : Int) - a.cal[j].toNat).natAbs < a.wiggleRoom.toNat) := by decide
theorem witness_WindowsDecideTheButton :
    (analog 0 []).abc.calibrated 18 = true ∧ (analog 0 []).abc.Separated 18 := by
  unfold AbcRegs.Separated; decide +kernel
theorem witness_UncalibratedClassificationSetsFault :
    base.abc.wrValid = false ∧ (∃ i : Button, i.val < base.params.nSw ∧ base.abc.calValid[i] = false) ∧ (1023#16).toNat < 1024 ∧
    let s := { base with env := { base.env with adc := [1023] } }
    s.env.adc = 1023 :: [] ∧ s.params.floatSentinel ≠ some 1023 ∧
    (1023 = if s.params.abcReinit then s.params.smoothInit else s.abc.smoothed) ∧
    stableFlag (smoothStep 1023 1023) 1023 = true := by decide
theorem witness_SettleIsTwoMicroSteps :
    let s := { turn .fg base with abc := { base.abc with abcState := .ABC_SETTLING } }
    s.nextTurn = .fg ∧ s.fgMayStep = true ∧ s.straps.seqEn = .host ∧ s.prog.micro = .idle ∧
    s.abc.abcState = .ABC_SETTLING := by decide
theorem witness_CalloadWritesOneEntry :
    (17#5).toNat = (17 : Button).val ∧ (17 : Button).val < base.params.nSw ∧ base.params.nSw ≤ (18#5).toNat ∧
    (1023#16).toNat < 2 ^ base.params.adcW := by decide
theorem witness_WrloadWritesTheTolerance : (1023#16).toNat < 1024 ∧ (base.abc.wiggleRoom = 0) := by decide
theorem witness_PxInitArmsOrLogs :
    base.env.ack[1] = true ∧ ({ base with env := { base.env with ack := #v[true, false] } } : State).env.ack[1] = false := by
  decide
theorem witness_HandlerEntrySavesNothing :
    enterable.chip[1].isrState = .IDLE ∧ enterable.chip[1].irqLatch = true ∧ enterable.chip[1].pxConfigured = true ∧
    enterable.sys.irqEnable = true ∧ enterable.straps.acqMode = .EXPANDER := by decide
/-- The word of `px.isr 1` in place: the next step enters the handler, from `State.reset` with its `ANALOG` strap too. -/
theorem test_withFetchWord_isr :
    nextHas (step (State.reset.withFetchWord 16 0x3101)) (fun t => t.chip[1].isrState == .FETCH) = true := by decide
/-- Nothing pending; pins 3 and 15 pending, the chip reporting 15. -/
theorem witness_FetchTakesAnyPendingPin :
    (chip1 .FETCH 0 0).chip[1].isrState = .FETCH ∧ (chip1 .FETCH 0 0).chip[1].pend = 0 ∧
    let s := { chip1 .FETCH 0 0x8008 with report := #v[0, 15] }
    s.chip[1].pend ≠ 0 ∧ s.chip[1].pend.getLsbD (15 : Pin).val = true ∧ s.report[1] = 15 := by decide
/-- Pins 1 (switch, pressed and released), 15 (contact) and 7 (unused) of chip 1. -/
theorem witness_ReadRoutesThePin :
    (chip1 .READ 1 0).chip[1].isrState = .READ ∧
    (chip1 .READ 1 0).params.pinMap.kind 1 1 = .SWITCH 17 ∧
    ({ chip1 .READ 1 0 with env := { base.env with level := #v[0, 0] } } : State).env.level[1].getLsbD (1 : Pin).val =
      base.params.pressedLevel ∧
    (chip1 .READ 1 0).env.level[1].getLsbD (1 : Pin).val ≠ base.params.pressedLevel ∧
    base.params.pinMap.kind 1 15 = .ENC_B 3 ∧ base.params.pinMap.kind 1 7 = .UNUSED := by decide
theorem witness_PartnerFeedsTheDecoder :
    (chip1 .PARTNER 12 0).params.pinMap.Wf 18 ∧ (chip1 .PARTNER 12 0).chip[1].isrState = .PARTNER ∧
    base.params.pinMap.kind 1 12 = .ENC_A 2 ∧ base.params.pinMap.kind 1 13 = .ENC_B 2 := by decide
theorem witness_HandlerWritesOnlyItsRegisters : nextHas (exec (.pxIsr 1) (chip1 .PARTNER 12 0)) (fun t => t.chip[1].isrState == .FETCH) = true := by
  decide
theorem witness_PxTakeReadsAndClears :
    base.sys.irqEnable = false ∧ (chip1 .IDLE 0 0).sys.irqEnable = true ∧
    let s := { turn .fg base with
      prog := { base.prog with micro := .takeClear }, sys := { base.sys with fgTmp := (0x80#8).toInt } }
    s.nextTurn = .fg ∧ s.fgMayStep = true ∧ s.straps.seqEn = .host ∧ s.prog.micro = .takeClear ∧
    s.sys.fgTmp = (0x80#8).toInt := by decide
theorem witness_PendingChangesStayLatched :
    enterable.ChangesLatched ∧ enterable.chip[1].pend ≠ 0 ∧ nextHas (step enterable) (fun t => !t.chip[1].irqLatch) = true := by
  unfold State.ChangesLatched; decide
theorem witness_DirectActionsPromoteAndCall :
    base.params.actionMap = defaultActionMap ∧ base.params.selectIndex = 0 ∧ (16#5).toNat < base.params.nSw ∧ base.menu.flowActive = false ∧
    base.menu.menuStatus = .noMenusActive ∧ (menu .secondaryMenuActive 4 (-1)).menu.menuStatus ≠ .noMenusActive := by decide
/-- With `SELECT` moved to index 17 and the map flow to 0. -/
theorem witness_PressFollowsTheActionMap :
    let m := (defaultActionMap.set 0 .MAP_FLOW).set 17 .SELECT
    let s := { base with params := { defaultParams with actionMap := m, selectIndex := 17, flowTriggerIndex := 0 } }
    pressOf (16 : Button).val = some .menuPress16 ∧ s.params.actionMap[(16 : Button)] = .FREQ_ENTRY ∧
    Machine.Action.FREQ_ENTRY ∉ [Machine.Action.SELECT, .MENU_UP, .MENU_DOWN, .MAP_FLOW] ∧ s.menu.flowActive = false ∧
    s.menu.menuStatus = .noMenusActive ∧ (16 : Button) ≠ s.params.selectIndex ∧ (16 : Button).val < s.params.nSw := by decide
/-- Index 31 with `N_SW` = 32, its word on the port. -/
theorem witness_PressFollowsTheActionMap_unlisted :
    let s := { presents 0x401F 0 with params := { defaultParams with nSw := 32 } }
    (31 : Button).val < s.params.nSw ∧ s.params.actionMap[(31 : Button)] = .FREQ_ENTRY ∧ s.menu.flowActive = false ∧
    s.Accepting (BitVec.ofNat 16 (0x4000 + (31 : Button).val)) 0 ∧ s.menu.menuStatus = .noMenusActive ∧
    (31 : Button) ≠ s.params.selectIndex := by unfold State.Accepting; decide
theorem witness_SelectWithoutMenuIsNoticed :
    pressOf (0 : Button).val = some .menuPress0 ∧ (0 : Button).val < base.params.nSw ∧ base.params.selectIndex = 0 ∧
    base.menu.flowActive = false ∧ base.menu.menuStatus = .noMenusActive := by decide
theorem witness_SelectCallsTheMenuFunction :
    let s := menu .primaryMenuActive 4 (-1)
    pressOf (0 : Button).val = some .menuPress0 ∧ (0 : Button).val < s.params.nSw ∧
    s.params.actionMap[(0 : Button)] = .SELECT ∧ s.menu.flowActive = false ∧ s.menu.menuStatus = .primaryMenuActive ∧
    s.env.ret = [] ∧ ({ s with env := { s.env with ret := [0x80] } } : State).env.ret = 0x80 :: [] ∧
    let w := { turn .fg s with prog := { s.prog with micro := .menuWait } }
    w.nextTurn = .fg ∧ w.fgMayStep = true ∧ w.straps.seqEn = .host ∧ w.prog.micro = .menuWait := by decide
theorem witness_SelectCollapsesTheSecondaryMenu :
    let s := menu .secondaryMenuActive 4 (-1)
    pressOf (0 : Button).val = some .menuPress0 ∧ (0 : Button).val < s.params.nSw ∧
    s.params.actionMap[(0 : Button)] = .SELECT ∧ s.menu.flowActive = false ∧ s.menu.menuStatus = .secondaryMenuActive := by decide
/-- At both ends of the table, in an inactive and an active menu. -/
theorem witness_MenuNavigationWraps :
    base.MenuInv ∧ base.menu.mainMenuIndex.toInt = 0 ∧ pressOf (1 : Button).val = some .menuPress1 ∧
    pressOf (4 : Button).val = some .menuPress4 ∧ base.params.actionMap[(1 : Button)] = .MENU_UP ∧
    base.params.actionMap[(4 : Button)] = .MENU_DOWN ∧ base.menu.menuStatus = .noMenusActive ∧
    (1 : Button) ≠ base.params.selectIndex ∧ (4 : Button) ≠ base.params.selectIndex ∧ (4 : Button).val < base.params.nSw ∧ base.menu.flowActive = false ∧
    (menu .secondaryMenuActive 4 (-1)).MenuInv ∧
    (menu .secondaryMenuActive 4 (-1)).menu.mainMenuIndex.toInt = (menu .secondaryMenuActive 4 (-1)).params.nMain - 1 := by
  unfold State.MenuInv; decide
theorem witness_MapFlowOpensTheFlow :
    base.straps.sdFlow = .PRESENT ∧
    ({ base with straps := { base.straps with sdFlow := .ABSENT } } : State).straps.sdFlow = .ABSENT ∧
    pressOf (17 : Button).val = some .menuPress17 ∧ base.params.actionMap[(17 : Button)] = .MAP_FLOW ∧
    base.menu.menuStatus = .noMenusActive ∧ (17 : Button) ≠ base.params.selectIndex ∧ (17 : Button).val < base.params.nSw ∧ base.menu.flowActive = false := by
  decide
theorem witness_FlowkeyRoutesOrCloses :
    inFlow.menu.flowActive = true ∧ (17#8).toNat = inFlow.params.flowTriggerIndex.val ∧ (17#8).toNat < inFlow.params.nSw ∧
    (16#8).toNat ≠ inFlow.params.flowTriggerIndex.val ∧ base.menu.flowActive = false ∧
    inFlow.params.nSw ≤ (0xFF#8).toNat := by decide
theorem witness_MenuInvariantIsKept :
    (menu .primaryMenuActive 4 0).MenuInv ∧
    nextHas (step { menu .primaryMenuActive 4 0 with env := { base.env with cmds := [(0x4001, 0)] } })
      (fun t => t.menu.mainMenuIndex == 0) = true := by unfold State.MenuInv; decide
theorem witness_MenusNeverDeactivate :
    let s := { menu .secondaryMenuActive 2 (-1) with env := { base.env with cmds := [(0x4000, 0)] } }
    nextHas (step s) (fun t => t.menu.menuStatus == .primaryMenuActive) = true ∧ s.nextTurn ≠ .env .reset ∧
    s.menu.menuStatus ≠ .noMenusActive := by decide
theorem witness_FlowEndsOnlyByItsTrigger :
    let s := { inFlow with env := { base.env with cmds := [(0x4111, 0)] } }
    nextHas (step s) (fun t => !t.menu.flowActive) = true ∧ s.nextTurn ≠ .env .reset ∧ s.menu.flowActive = true := by decide
/-- Both modes, with chip 1 silent in `EXPANDER`: 19 and 22 steps with the default `N_SW`. -/
theorem witness_SequencerBootLoadsTheCalibration :
    let s := sequencer .ANALOG .PH_BOOT 19
    let u := { sequencer .EXPANDER .PH_BOOT 22 with env := { base.env with ack := #v[true, false] } }
    (s.SequencerRuns (s.params.nSw + 1) ∧ s.straps.acqMode = .ANALOG ∧ s.sys.fgPhase = .PH_BOOT ∧ s.prog.seqPos = 0) ∧
    (u.SequencerRuns (u.params.nSw + 4) ∧ u.straps.acqMode = .EXPANDER ∧ u.sys.fgPhase = .PH_BOOT ∧ u.prog.seqPos = 0) ∧
    u.env.ack[0] = true ∧ u.env.ack[1] = false ∧ s.params.nSw ≤ 32 ∧
    (∀ i : Button, SampleFits 10 s.env.calStore[i]) ∧ SampleFits 10 s.env.wiggleStore := by
  unfold State.SequencerRuns; decide
/-- With decoder 0 turned clockwise, 3 counter-clockwise, and button 5 pending. -/
theorem witness_SequencerTakesAndDrains :
    let s := { sequencer .EXPANDER .PH_TAKE 15 with
      enc := (base.enc.set 0 { decodeState := .START, acc := 2 }).set 3 { decodeState := .CW_NEXT, acc := -1 }
      pendingButton := 5 }
    s.SequencerRuns 15 ∧ s.sys.fgPhase = .PH_TAKE ∧ s.prog.seqPos = 0 ∧ s.prog.seqDir = .noStep ∧
    s.enc[0].acc > 0 ∧ s.enc[3].acc < 0 ∧ s.enc[1].acc = 0 := by
  unfold State.SequencerRuns; decide
/-- R232: what such a state does: the events of decoders 0 and 3, in order. -/
theorem test_sequencer_drains :
    nextHas (core.run 15 { sequencer .EXPANDER .PH_TAKE 15 with
        enc := (base.enc.set 0 { decodeState := .START, acc := 2 }).set 3 { decodeState := .CW_NEXT, acc := -1 }
        pendingButton := 5 })
      (fun t => t.out.events == [.ENC_EVENT 0 .CW, .ENC_EVENT 3 .CCW] && t.sys.fgButton == 5 &&
        t.sys.fgPhase == .PH_PRESS) = true := by decide +kernel
/-- P6: a state of the sequencer in phase `p` with button `b`. -/
def routing (p : FgPhase) (b : Idx) : State :=
  { sequencer .EXPANDER p 1 with sys := { (sequencer .EXPANDER p 1).sys with fgButton := b } }
/-- The hypotheses shared by the clauses. -/
theorem witness_SequencerRoutesTheButton :
    (routing .PH_PRESS 17).nextTurn = .fg ∧ (routing .PH_PRESS 17).fgMayStep = true ∧
    (routing .PH_PRESS 17).straps.seqEn = .sequencer ∧ (routing .PH_PRESS 17).prog.seqPos = 0 ∧
    (routing .PH_PRESS 17).busy = false := by decide
/-- `PH_POLL`: a pass that ends on a hit (818, button 2), one on `NONE` (830), one that goes on; a later pass. -/
theorem witness_SequencerRoutesTheButton_poll :
    let s (v : Sample) (l : List Sample) :=
      { routing .PH_POLL 0xFF with abc := (analog v l).abc, env := { base.env with adc := l } }
    nextHas (exec .abcPoll (s 820 [805])) (fun u => !u.busy && u.out.responses == [(2 : Idx).signExtend 16]) = true ∧
    nextHas (exec .abcPoll (s 833 [805])) (fun u => !u.busy && u.out.responses == [(0xFF : Idx).signExtend 16]) = true ∧
    nextHas (exec .abcPoll (s 1023 [805])) (fun u => u.busy) = true ∧ (s 820 [805]).busy = false ∧
    let w := { s 820 [805] with abc := { (s 820 [805]).abc with abcState := .ABC_SAMPLING } }
    w.prog.micro = .idle ∧ w.abc.abcState = .ABC_SAMPLING ∧ w.pollPass.busy = false := by decide
/-- `PH_SETTLE`: before and between its micro-steps. -/
theorem witness_SequencerRoutesTheButton_settle :
    let s := { routing .PH_SETTLE 2 with abc := { base.abc with abcState := .ABC_SETTLING } }
    (routing .PH_SETTLE 2).sys.fgPhase = .PH_SETTLE ∧ (routing .PH_SETTLE 2).busy = false ∧
    s.prog.micro = .idle ∧ s.abc.abcState = .ABC_SETTLING := by decide
/-- `PH_PRESS`: button 17 outside the flow and during it, an index without a row, none, a select that waits. -/
theorem witness_SequencerRoutesTheButton_press :
    (routing .PH_PRESS 17).sys.fgButton ≠ 0xFF#8 ∧ pressOf (routing .PH_PRESS 17).sys.fgButton.toNat = some .menuPress17 ∧
    nextHas (exec .menuPress17 (routing .PH_PRESS 17)) (fun u => !u.busy) = true ∧
    nextHas (exec (.menuFlowkey 17) { routing .PH_PRESS 17 with menu := inFlow.menu }) (fun u => !u.busy) = true ∧
    (routing .PH_PRESS 18).sys.fgButton = BitVec.ofNat 8 (18 : Button).val ∧
    (routing .PH_PRESS 0xFF).sys.fgButton = 0xFF#8 ∧
    let s := { routing .PH_PRESS 0 with menu := (menu .primaryMenuActive 4 (-1)).menu }
    nextHas (exec .menuPress0 s) (fun u => u.busy) = true ∧
    let w := { s with prog := { s.prog with micro := .menuWait } }
    w.prog.micro = .menuWait ∧ w.env.ret = [] ∧ w.abc.abcState = .ABC_IDLE ∧
    ({ w with env := { w.env with ret := [3] } } : State).env.ret = 3 :: [] := by decide
/-- P6 and R233: after a hit `PH_SETTLE` with the button, after `NONE` `PH_POLL` again. -/
theorem test_sequencer_polls :
    let s (v : Sample) := { sequencer .ANALOG .PH_POLL 1 with abc := (analog v []).abc, env := { base.env with adc := [805] } }
    nextHas (step (s 820)) (fun t => t.sys.fgButton == 2 && t.sys.fgPhase == .PH_SETTLE) = true ∧
    nextHas (step (s 833)) (fun t => t.sys.fgButton == 0xFF && t.sys.fgPhase == .PH_POLL) = true := by decide

/-! ## Other parameters (R5) -/

/-- The block with other parameters. -/
def withParams (f : Params → Params) (s : State) : State := { s with params := f s.params }

/-- S1 (source scenario A): `N_SW` = 3, `CAL` = [900, 800, 700], `WIGGLE_ROOM` = 20: 805 gives 1. -/
theorem test_scenario_A :
    nextHas (exec (.abcClassify 805) (withParams (fun p => { p with nSw := 3 })
      { base with abc := { base.abc with
          cal := ((base.abc.cal.set 0 900).set 1 800).set 2 700
          calValid := ((base.abc.calValid.set 0 true).set 1 true).set 2 true
          wiggleRoom := 20, wrValid := true } }))
      (fun t => t.out.responses == [1] && t.sys.fault == 0) = true := by decide
/-- R183, R119 with `N_SW` = 3: index 3 is out of contract, in `menu.press` and in `abc.calload`. -/
theorem test_small_nSw :
    let s := withParams (fun p => { p with nSw := 3 }) base
    nextHas (exec .menuPress3 s) (fun t => t.sys.fault == 4 && t.out.events == []) = true ∧
    nextHas (exec (.abcCalload 3 5) s) (fun t => t.sys.fault == 4) = true := by decide
/-- R182 with `N_SW` = 20: the word 0x4012 runs the action of index 18, 0x4014 is out of contract. -/
theorem test_large_nSw :
    let s (w : Word) := withParams (fun p => { p with nSw := 20, actionMap := p.actionMap.set 18 .BAND_UP })
      { presents w 0 with menu := { base.menu with menuStatus := .primaryMenuActive } }
    nextHas (step (s 0x4012)) (fun t => t.out.events == [.ACTION 2] && t.sys.fault == 0) = true ∧
    nextHas (step (s 0x4014)) (fun t => t.out.events == [] && t.sys.fault == 4) = true := by decide
/-- R72 with `ADC_W` = 12: a data operand of 4095 fits, 4096 does not; the environment's result has 12 bits (R62). -/
theorem test_wide_adc :
    let s := withParams (fun p => { p with adcW := 12 }) base
    nextHas (exec (.abcWrload 4095) s) (fun t => t.abc.wiggleRoom == 4095) = true ∧
    nextHas (exec (.abcWrload 4096) s) (fun t => t.sys.fault == 1) = true ∧
    (s.envStep (.adc 0xF005)).env.adc = [5] := by decide
/-- R96 with `ACC_W` = 8: the count stays at 127. -/
theorem test_narrow_acc :
    nextHas (exec (.qdecUpdate 2 false false) (withParams (fun p => { p with accW := 8 }) (decoder .CW_FINAL 127)))
      (fun t => t.enc[2].acc == 127) = true := by decide

end Sys2Proof.Tests
end

section
/-! PROOFS. O13: the configuration of the block, its parameters (R5) and its sampled straps (R15), which no operation writes.
One lemma per operation that branches, in the order of the model; the step lemma is put together from them. -/

namespace Sys2Proof.Machine

/-- What the block was built with and what it sampled at reset (R5, R15). -/
def State.config (s : State) : Params × Straps := (s.params, s.straps)

theorem config_eq_iff {s t : State} : t.config = s.config ↔ t.params = s.params ∧ t.straps = s.straps := by
  simp only [State.config, Prod.mk.injEq]

/-! The classifier -/

theorem classifyRespond_config (v : Sample) (s : State) : (s.classifyRespond v).config = s.config := by
  unfold State.classifyRespond; split <;> rfl

theorem sampleOnce_config (s : State) : s.sampleOnce.config = s.config := by
  unfold State.sampleOnce; split <;> rfl

theorem pollPass_config (s : State) : s.pollPass.config = s.config := by
  cases hadc : s.env.adc with
  | nil => rw [pollPass_nil hadc]
  | cons raw rest =>
    by_cases hs : s.params.floatSentinel = some raw
    · rw [pollPass_sentinel hadc hs]; rfl
    · rw [pollPass_cons hadc hs]
      split
      · exact classifyRespond_config _ _
      · rfl

theorem execAbcClassify_config {v : Word} {s t : State} (h : execAbcClassify v s = .next t) : t.config = s.config := by
  unfold execAbcClassify at h
  split at h <;> cases h
  · exact classifyRespond_config v s
  · rfl

theorem execAbcCalload_config {i : BitVec 5} {v : Word} {s t : State} (h : execAbcCalload i v s = .next t) :
    t.config = s.config := by
  unfold execAbcCalload at h
  split at h
  · split at h <;> cases h <;> rfl
  · cases h; rfl

theorem execAbcWrload_config {v : Word} {s t : State} (h : execAbcWrload v s = .next t) : t.config = s.config := by
  unfold execAbcWrload at h; split at h <;> cases h <;> rfl

/-! The decoder and the port expander -/

theorem execQdecProcess_config {e : EncId} {s t : State} (h : execQdecProcess e s = .next t) : t.config = s.config := by
  unfold execQdecProcess at h; split at h <;> cases h <;> rfl

theorem execPxInit_config {c : Chip} {s t : State} (h : execPxInit c s = .next t) : t.config = s.config := by
  unfold execPxInit at h; split at h <;> cases h <;> rfl

theorem execPxTake_config {s t : State} (h : execPxTake s = .next t) : t.config = s.config := by
  unfold execPxTake at h; split at h <;> cases h <;> rfl

theorem isrFetch_config (c : Chip) (s : State) : (s.isrFetch c).config = s.config := by
  unfold State.isrFetch; split <;> rfl

theorem isrRead_config (c : Chip) (s : State) : (s.isrRead c).config = s.config := by
  simp only [State.isrRead]
  split
  · split <;> rfl
  all_goals rfl

theorem isrPartner_config {c : Chip} {s t : State} (h : s.isrPartner c = .next t) : t.config = s.config := by
  simp only [State.isrPartner] at h; split at h <;> cases h <;> rfl

/-- A handler's micro-step, whichever of the four it is (R147 to R151). -/
theorem execPxIsr_config {c : Chip} {s t : State} (h : execPxIsr c s = .next t) : t.config = s.config := by
  unfold execPxIsr at h
  split at h
  · cases h; split <;> rfl
  · cases h; exact isrFetch_config c s
  · cases h; exact isrRead_config c s
  · exact isrPartner_config h

/-! The menu -/

theorem promote_config (s : State) : s.promote.config = s.config := by
  unfold State.promote; split <;> rfl

theorem menuReturn_config (s : State) : s.menuReturn.config = s.config := by
  unfold State.menuReturn; split <;> rfl

theorem select_config (s : State) : s.select.config = s.config := by
  unfold State.select
  split
  · rfl
  · exact menuReturn_config _

theorem navigate_config (m : Idx) (s : State) : (s.navigate m).config = s.config := by
  simp only [State.navigate]; split <;> rfl

theorem mapFlow_config (s : State) : s.mapFlow.config = s.config := by
  unfold State.mapFlow; split <;> rfl

theorem runAction_config (a : Action) (s : State) : (s.runAction a).config = s.config := by
  cases a
  case SELECT => exact select_config s
  case MENU_UP => exact navigate_config _ s
  case MENU_DOWN => exact navigate_config _ s
  case MAP_FLOW => exact mapFlow_config s
  all_goals rfl

theorem menuPress_config (k : Button) (s : State) : (s.menuPress k).config = s.config := by
  obtain ⟨-, h⟩ | ⟨-, -, -, -, h⟩ | ⟨-, -, -, h⟩ := menuPress_cases k s <;> rw [h]
  · rfl
  · rfl
  · exact (runAction_config _ _).trans (promote_config s)

theorem pressUnlisted_config (k : Idx) (s : State) : (s.pressUnlisted k).config = s.config := by
  obtain ⟨hk, h⟩ | ⟨-, h⟩ := pressUnlisted_cases k s <;> rw [h]
  · exact menuPress_config _ s
  · rfl

theorem execMenuFlowkey_config {k : Idx} {s t : State} (h : execMenuFlowkey k s = .next t) : t.config = s.config := by
  unfold execMenuFlowkey at h
  split at h
  · split at h <;> cases h <;> rfl
  · cases h; rfl

/-! Every operation, and what the sequencer does after it -/

theorem exec_config {i : Instr} {s t : State} (h : exec i s = .next t) : t.config = s.config := by
  cases i with
  | cli | sei | qdecUpdate | abcSettle => cases h; rfl
  | qdecProcess => exact execQdecProcess_config h
  | abcPoll => cases h; exact pollPass_config _
  | abcSample => cases h; exact sampleOnce_config s
  | abcClassify => exact execAbcClassify_config h
  | abcCalload => exact execAbcCalload_config h
  | abcWrload => exact execAbcWrload_config h
  | pxInit => exact execPxInit_config h
  | pxIsr => exact execPxIsr_config h
  | pxTake => exact execPxTake_config h
  | menuFlowkey => exact execMenuFlowkey_config h
  | menuPress0 | menuPress1 | menuPress2 | menuPress3 | menuPress4 | menuPress5 | menuPress6 | menuPress7 | menuPress8
  | menuPress9 | menuPress10 | menuPress11 | menuPress12 | menuPress13 | menuPress14 | menuPress15 | menuPress16
  | menuPress17 => cases h; exact menuPress_config _ s

theorem continueOperation_config (s : State) : s.continueOperation.config = s.config := by
  unfold State.continueOperation
  split
  · rfl
  · rfl
  · exact sampleOnce_config s
  · exact menuReturn_config s
  · split
    · exact pollPass_config s
    · rfl
    · rfl

theorem phaseEnd_config (s : State) : s.phaseEnd.config = s.config := by
  unfold State.phaseEnd; split <;> rfl

theorem routeResult_config (s : State) : s.routeResult.config = s.config := by
  unfold State.routeResult
  split
  · split <;> rfl
  · rfl
  · split
    · rfl
    · split <;> rfl
  all_goals rfl

theorem advance_config (s : State) : s.advance.config = s.config := by
  unfold State.advance
  split
  · rfl
  · exact phaseEnd_config s

theorem afterOperation_config (s : State) : s.afterOperation.config = s.config := by
  unfold State.afterOperation
  split
  · rfl
  · split
    · rfl
    · exact (advance_config _).trans (routeResult_config s)

/-! The agents' steps -/

theorem issue_config {q : Request} {s t : State} (h : s.issue q = .next t) : t.config = s.config := by
  obtain ⟨i, u, -, hu, rfl⟩ | ⟨k, -, rfl⟩ | ⟨-, rfl⟩ := issue_cases h
  · exact (afterOperation_config u).trans ((exec_config hu).trans rfl)
  · exact (afterOperation_config _).trans (pressUnlisted_config k _)
  · rfl

theorem foregroundStep_config {s t : State} (h : s.foregroundStep = .next t) : t.config = s.config := by
  obtain rfl | ⟨-, -, rfl⟩ | ⟨-, -, -, w, d, rest, -, hq⟩ | ⟨-, -, -, q, -, hq⟩ | ⟨-, -, -, -, rfl⟩ :=
    foregroundStep_cases h
  · rfl
  · exact (afterOperation_config _).trans (continueOperation_config s)
  · exact (issue_config hq).trans rfl
  · exact issue_config hq
  · exact phaseEnd_config s

theorem handlerStep_config {c : Chip} {p : Pin} {s t : State} (h : s.handlerStep c p = .next t) : t.config = s.config := by
  obtain ⟨-, hx⟩ | ⟨-, -, hx⟩ | ⟨-, -, rfl⟩ := handlerStep_cases h
  · exact (exec_config hx).trans rfl
  · exact (exec_config hx).trans rfl
  · rfl

/-- A step of the environment that is not reset: moving the strap pins is one too, and it leaves the sampled straps (R15). -/
theorem envStep_config {e : EnvStep} (he : e ≠ .reset) (s : State) : (s.envStep e).config = s.config := by
  cases e
  case reset => exact absurd rfl he
  case pin c p v =>
    simp only [State.envStep, State.envPin]
    split <;> rfl
  all_goals rfl

/-- R270, R271: reset keeps the parameters and samples the strap pins. -/
theorem resetBlock_config (s : State) : s.resetBlock.config = (s.params, s.env.strapPins) := rfl

/-- Every step but reset keeps the configuration. -/
theorem step_config {s t : State} (h : step s = .next t) (hr : s.nextTurn ≠ .env .reset) : t.config = s.config := by
  obtain ⟨-, hf⟩ | ⟨c, p, -, hi⟩ | ⟨e, hn, rfl⟩ := step_cases h
  · exact (foregroundStep_config hf).trans rfl
  · exact (handlerStep_config hi).trans rfl
  · have he : e ≠ .reset := fun he => hr (he ▸ hn)
    exact envStep_config he s.popTurn

theorem step_config_of_reset {s t : State} (h : step s = .next t) (hr : s.nextTurn = .env .reset) :
    t.config = (s.params, s.env.strapPins) := by
  rw [step_of_env hr] at h
  cases h
  exact resetBlock_config s.popTurn

/-- Settles O13: reset samples the strap pins, and every other step keeps the configuration as it is. -/
theorem parametersAndStrapsAreConstant : Obligations.ParametersAndStrapsAreConstant := by
  intro s t h
  by_cases hr : s.nextTurn = .env .reset
  · obtain ⟨hp, hs⟩ := Prod.mk.inj (step_config_of_reset h hr)
    exact ⟨hp, fun hn => absurd hr hn, fun _ => hs⟩
  · obtain ⟨hp, hs⟩ := config_eq_iff.1 (step_config h hr)
    exact ⟨hp, fun _ => hs, fun hn => absurd hn hr⟩

end Sys2Proof.Machine
end

section
/-! PROOFS. O55 and O11: the invariant of the menu registers (R21, R210), and the invariants that hold after reset. What a
step can do to the menu registers is said once, as a sequence of the moves that R184 to R206 name; the invariant is then a
matter of the moves alone. -/

namespace Sys2Proof.Machine

/-- One change that the rules make to the menu registers, of a block with `n` top-level menus. -/
inductive MenuRegs.Move (n : Nat) : MenuRegs → MenuRegs → Prop
  /-- select with no menu active (R184) -/
  | noMenu (m : MenuRegs) : m.menuStatus = .noMenusActive →
      Move n m { m with menuStatus := .noMenusActive, mainMenuIndex := 0, secondaryMenuIndex := 0 }
  /-- the promotion (R185) -/
  | promote (m : MenuRegs) : m.menuStatus = .noMenusActive → Move n m { m with menuStatus := .primaryMenuActive }
  /-- the menu function has returned (R187) -/
  | returned (m : MenuRegs) (r : Idx) :
      Move n m { m with secondaryChoice := r, menuStatus := .secondaryMenuActive, secondaryMenuIndex := -1 }
  /-- the secondary menu collapses (R188) -/
  | collapse (m : MenuRegs) : m.menuStatus = .secondaryMenuActive →
      Move n m { m with menuStatus := .primaryMenuActive, mainMenuIndex := 0 }
  /-- menu up (R189) -/
  | up (m : MenuRegs) : Move n m { m with mainMenuIndex := menuUp n m.mainMenuIndex }
  /-- menu down (R190) -/
  | down (m : MenuRegs) : Move n m { m with mainMenuIndex := menuDown n m.mainMenuIndex }
  /-- the extended flow opens (R205) -/
  | openFlow (m : MenuRegs) : Move n m { m with flowActive := true }
  /-- the extended flow closes (R206) -/
  | closeFlow (m : MenuRegs) : m.flowActive = true → Move n m { m with flowActive := false }

/-- From `s` to `t` the menu registers took moves, none or more. -/
def State.MenuMoves (s t : State) : Prop := Relation.ReflTransGen (MenuRegs.Move s.params.nMain) s.menu t.menu

theorem menuMoves_of_eq {s t : State} (h : t.menu = s.menu) : s.MenuMoves t := by
  unfold State.MenuMoves; rw [h]

theorem menuMoves_of_move {s t : State} (h : MenuRegs.Move s.params.nMain s.menu t.menu) : s.MenuMoves t := .single h

theorem menuMoves_trans {s t u : State} (hc : t.config = s.config) (h : s.MenuMoves t) (h' : t.MenuMoves u) :
    s.MenuMoves u := by
  have hp := (config_eq_iff.1 hc).1
  unfold State.MenuMoves at h'
  rw [hp] at h'
  exact Relation.ReflTransGen.trans h h'

/-! Operations that leave the menu registers alone -/

theorem classifyRespond_menu (v : Sample) (s : State) : (s.classifyRespond v).menu = s.menu := by
  unfold State.classifyRespond; split <;> rfl

theorem sampleOnce_menu (s : State) : s.sampleOnce.menu = s.menu := by
  unfold State.sampleOnce; split <;> rfl

theorem pollPass_menu (s : State) : s.pollPass.menu = s.menu := by
  cases hadc : s.env.adc with
  | nil => rw [pollPass_nil hadc]
  | cons raw rest =>
    by_cases hs : s.params.floatSentinel = some raw
    · rw [pollPass_sentinel hadc hs]; rfl
    · rw [pollPass_cons hadc hs]
      split
      · exact classifyRespond_menu _ _
      · rfl

theorem execAbcClassify_menu {v : Word} {s t : State} (h : execAbcClassify v s = .next t) : t.menu = s.menu := by
  unfold execAbcClassify at h
  split at h <;> cases h
  · exact classifyRespond_menu v s
  · rfl

theorem execAbcCalload_menu {i : BitVec 5} {v : Word} {s t : State} (h : execAbcCalload i v s = .next t) :
    t.menu = s.menu := by
  unfold execAbcCalload at h
  split at h
  · split at h <;> cases h <;> rfl
  · cases h; rfl

theorem execAbcWrload_menu {v : Word} {s t : State} (h : execAbcWrload v s = .next t) : t.menu = s.menu := by
  unfold execAbcWrload at h; split at h <;> cases h <;> rfl

theorem execQdecProcess_menu {e : EncId} {s t : State} (h : execQdecProcess e s = .next t) : t.menu = s.menu := by
  unfold execQdecProcess at h; split at h <;> cases h <;> rfl

theorem execPxInit_menu {c : Chip} {s t : State} (h : execPxInit c s = .next t) : t.menu = s.menu := by
  unfold execPxInit at h; split at h <;> cases h <;> rfl

theorem execPxTake_menu {s t : State} (h : execPxTake s = .next t) : t.menu = s.menu := by
  unfold execPxTake at h; split at h <;> cases h <;> rfl

/-- R254: a handler's micro-step, whichever of the four it is, leaves the menu registers. -/
theorem execPxIsr_menu {c : Chip} {s t : State} (h : execPxIsr c s = .next t) : t.menu = s.menu := by
  unfold execPxIsr at h
  split at h
  · cases h; split <;> rfl
  · cases h; unfold State.isrFetch; split <;> rfl
  · cases h
    simp only [State.isrRead]
    split
    · split <;> rfl
    all_goals rfl
  · simp only [State.isrPartner] at h; split at h <;> cases h <;> rfl

theorem handlerStep_menu {c : Chip} {p : Pin} {s t : State} (h : s.handlerStep c p = .next t) : t.menu = s.menu := by
  obtain ⟨-, hx⟩ | ⟨-, -, hx⟩ | ⟨-, -, rfl⟩ := handlerStep_cases h
  · exact (execPxIsr_menu hx).trans rfl
  · exact (execPxIsr_menu hx).trans rfl
  · rfl

theorem envStep_menu {e : EnvStep} (he : e ≠ .reset) (s : State) : (s.envStep e).menu = s.menu := by
  cases e
  case reset => exact absurd rfl he
  case pin c p v =>
    simp only [State.envStep, State.envPin]
    split <;> rfl
  all_goals rfl

theorem phaseEnd_menu (s : State) : s.phaseEnd.menu = s.menu := by
  unfold State.phaseEnd; split <;> rfl

theorem routeResult_menu (s : State) : s.routeResult.menu = s.menu := by
  unfold State.routeResult
  split
  · split <;> rfl
  · rfl
  · split
    · rfl
    · split <;> rfl
  all_goals rfl

theorem advance_menu (s : State) : s.advance.menu = s.menu := by
  unfold State.advance
  split
  · rfl
  · exact phaseEnd_menu s

theorem afterOperation_menu (s : State) : s.afterOperation.menu = s.menu := by
  unfold State.afterOperation
  split
  · rfl
  · split
    · rfl
    · exact (advance_menu _).trans (routeResult_menu s)

/-! The operations of the menu -/

theorem promote_menuMoves (s : State) : s.MenuMoves s.promote := by
  by_cases h : s.menu.menuStatus = .noMenusActive
  · rw [promote_of_inactive h]; exact menuMoves_of_move (.promote _ h)
  · rw [promote_of_active h]; exact menuMoves_of_eq rfl

theorem menuReturn_menuMoves (s : State) : s.MenuMoves s.menuReturn := by
  unfold State.menuReturn
  split
  · exact menuMoves_of_eq rfl
  · exact menuMoves_of_move (.returned _ _)

theorem select_menuMoves (s : State) : s.MenuMoves s.select := by
  unfold State.select
  split
  · exact menuMoves_of_move (.collapse _ ‹_›)
  · exact menuReturn_menuMoves (s.emit _)

theorem navigate_menu (m : Idx) (s : State) : (s.navigate m).menu = { s.menu with mainMenuIndex := m } := by
  simp only [State.navigate]; split <;> rfl

theorem mapFlow_menuMoves (s : State) : s.MenuMoves s.mapFlow := by
  unfold State.mapFlow
  split
  · exact menuMoves_of_move (.openFlow _)
  · exact menuMoves_of_eq rfl

theorem runAction_menuMoves (a : Action) (s : State) : s.MenuMoves (s.runAction a) := by
  cases a
  case SELECT => exact select_menuMoves s
  case MENU_UP => exact menuMoves_of_move (navigate_menu _ s ▸ .up _)
  case MENU_DOWN => exact menuMoves_of_move (navigate_menu _ s ▸ .down _)
  case MAP_FLOW => exact mapFlow_menuMoves s
  all_goals exact menuMoves_of_eq rfl

theorem menuPress_menuMoves (k : Button) (s : State) : s.MenuMoves (s.menuPress k) := by
  obtain ⟨-, h⟩ | ⟨-, -, -, hst, h⟩ | ⟨-, -, -, h⟩ := menuPress_cases k s <;> rw [h]
  · exact menuMoves_of_eq rfl
  · exact menuMoves_of_move (.noMenu _ hst)
  · exact menuMoves_trans (promote_config s) (promote_menuMoves s) (runAction_menuMoves _ _)

theorem pressUnlisted_menuMoves (k : Idx) (s : State) : s.MenuMoves (s.pressUnlisted k) := by
  obtain ⟨hk, h⟩ | ⟨-, h⟩ := pressUnlisted_cases k s <;> rw [h]
  · exact menuPress_menuMoves _ s
  · exact menuMoves_of_eq rfl

theorem execMenuFlowkey_menuMoves {k : Idx} {s t : State} (h : execMenuFlowkey k s = .next t) : s.MenuMoves t := by
  unfold execMenuFlowkey at h
  split at h
  · rename_i hf
    split at h <;> cases h
    · exact menuMoves_of_move (.closeFlow _ hf.1)
    · exact menuMoves_of_eq rfl
  · cases h; exact menuMoves_of_eq rfl

/-! Every operation, and the agents' steps -/

theorem exec_menuMoves {i : Instr} {s t : State} (h : exec i s = .next t) : s.MenuMoves t := by
  cases i with
  | cli | sei | qdecUpdate | abcSettle => cases h; exact menuMoves_of_eq rfl
  | qdecProcess => exact menuMoves_of_eq (execQdecProcess_menu h)
  | abcPoll => cases h; exact menuMoves_of_eq (pollPass_menu _)
  | abcSample => cases h; exact menuMoves_of_eq (sampleOnce_menu s)
  | abcClassify => exact menuMoves_of_eq (execAbcClassify_menu h)
  | abcCalload => exact menuMoves_of_eq (execAbcCalload_menu h)
  | abcWrload => exact menuMoves_of_eq (execAbcWrload_menu h)
  | pxInit => exact menuMoves_of_eq (execPxInit_menu h)
  | pxIsr => exact menuMoves_of_eq (execPxIsr_menu h)
  | pxTake => exact menuMoves_of_eq (execPxTake_menu h)
  | menuFlowkey => exact execMenuFlowkey_menuMoves h
  | menuPress0 | menuPress1 | menuPress2 | menuPress3 | menuPress4 | menuPress5 | menuPress6 | menuPress7 | menuPress8
  | menuPress9 | menuPress10 | menuPress11 | menuPress12 | menuPress13 | menuPress14 | menuPress15 | menuPress16
  | menuPress17 => cases h; exact menuPress_menuMoves _ s

theorem continueOperation_menuMoves (s : State) : s.MenuMoves s.continueOperation := by
  unfold State.continueOperation
  split
  · exact menuMoves_of_eq rfl
  · exact menuMoves_of_eq rfl
  · exact menuMoves_of_eq (sampleOnce_menu s)
  · exact menuReturn_menuMoves s
  · split
    · exact menuMoves_of_eq (pollPass_menu s)
    · exact menuMoves_of_eq rfl
    · exact menuMoves_of_eq rfl

/-- What the sequencer does after an operation adds no move. -/
theorem afterOperation_menuMoves {s t : State} (h : s.MenuMoves t) : s.MenuMoves t.afterOperation := by
  unfold State.MenuMoves; rw [afterOperation_menu]; exact h

theorem issue_menuMoves {q : Request} {s t : State} (h : s.issue q = .next t) : s.MenuMoves t := by
  obtain ⟨i, u, -, hu, rfl⟩ | ⟨k, -, rfl⟩ | ⟨-, rfl⟩ := issue_cases h
  · exact afterOperation_menuMoves (exec_menuMoves hu :)
  · exact afterOperation_menuMoves (pressUnlisted_menuMoves k (s.pushTrace _))
  · exact menuMoves_of_eq rfl

theorem foregroundStep_menuMoves {s t : State} (h : s.foregroundStep = .next t) : s.MenuMoves t := by
  obtain rfl | ⟨-, -, rfl⟩ | ⟨-, -, -, w, d, rest, -, hq⟩ | ⟨-, -, -, q, -, hq⟩ | ⟨-, -, -, -, rfl⟩ :=
    foregroundStep_cases h
  · exact menuMoves_of_eq rfl
  · exact afterOperation_menuMoves (continueOperation_menuMoves s)
  · exact (issue_menuMoves hq :)
  · exact issue_menuMoves hq
  · exact menuMoves_of_eq (phaseEnd_menu s)

/-- Every step but reset changes the menu registers by moves only. -/
theorem step_menuMoves {s t : State} (h : step s = .next t) (hr : s.nextTurn ≠ .env .reset) : s.MenuMoves t := by
  obtain ⟨-, hf⟩ | ⟨c, p, -, hi⟩ | ⟨e, hn, rfl⟩ := step_cases h
  · exact (foregroundStep_menuMoves hf :)
  · exact menuMoves_of_eq (handlerStep_menu hi :)
  · have he : e ≠ .reset := fun he => hr (he ▸ hn)
    exact menuMoves_of_eq (envStep_menu he s.popTurn)

/-! The invariant -/

/-- The part of `State.MenuInv` that is about the menu registers, of a block with `n` top-level menus (R21, R210). -/
structure MenuRegs.Inv (n : Nat) (m : MenuRegs) : Prop where
  main : 0 ≤ m.mainMenuIndex.toInt ∧ m.mainMenuIndex.toInt < n
  secondary : m.secondaryMenuIndex = -1 ∨ m.secondaryMenuIndex = 0
  secondaryActive : m.menuStatus = .secondaryMenuActive → m.secondaryMenuIndex = -1

theorem menuInv_iff (s : State) :
    s.MenuInv ↔ (1 ≤ s.params.nMain ∧ s.params.nMain ≤ 127) ∧ s.menu.Inv s.params.nMain :=
  and_congr_right fun _ => ⟨fun ⟨h, h', h''⟩ => ⟨h, h', h''⟩, fun ⟨h, h', h''⟩ => ⟨h, h', h''⟩⟩

theorem zeroIdx_mem {n : Nat} (hn : 1 ≤ n) : 0 ≤ (0 : Idx).toInt ∧ (0 : Idx).toInt < n :=
  ⟨le_rfl, Int.ofNat_lt.2 hn⟩

/-- A value of the index type's range is not changed by its 8 bits (R69). -/
theorem bmod_of_idxRange {v : Int} (h : -128 ≤ v) (h' : v < 128) : v.bmod (2 ^ 8) = v :=
  Int.bmod_eq_of_le (by simpa using h) (by simpa using h')

/-- R189: one further stays in the table, from the last entry too. -/
theorem menuUp_mem {n : Nat} (hn : 1 ≤ n ∧ n ≤ 127) {m : Idx} (h : 0 ≤ m.toInt ∧ m.toInt < n) :
    0 ≤ (menuUp n m).toInt ∧ (menuUp n m).toInt < n := by
  unfold menuUp
  split
  · exact zeroIdx_mem hn.1
  · have hadd : (m + 1).toInt = m.toInt + 1 := by
      rw [BitVec.toInt_add, show (1 : Idx).toInt = 1 from rfl]
      exact bmod_of_idxRange (by omega) (by omega)
    omega

/-- R190: one back stays in the table, from entry 0 too. -/
theorem menuDown_mem {n : Nat} (hn : 1 ≤ n ∧ n ≤ 127) {m : Idx} (h : 0 ≤ m.toInt ∧ m.toInt < n) :
    0 ≤ (menuDown n m).toInt ∧ (menuDown n m).toInt < n := by
  unfold menuDown
  split
  · have hlast : (BitVec.ofInt 8 (n - 1)).toInt = n - 1 := by
      rw [BitVec.toInt_ofInt]
      exact bmod_of_idxRange (by omega) (by omega)
    omega
  · have hne : m.toInt ≠ 0 := fun h0 => ‹m ≠ 0› (BitVec.eq_of_toInt_eq h0)
    have hsub : (m - 1).toInt = m.toInt - 1 := by
      rw [BitVec.toInt_sub, show (1 : Idx).toInt = 1 from rfl]
      exact bmod_of_idxRange (by omega) (by omega)
    omega

/-- Every move keeps the invariant. -/
theorem inv_of_move {n : Nat} (hn : 1 ≤ n ∧ n ≤ 127) {m m' : MenuRegs} (hm : MenuRegs.Move n m m') (h : m.Inv n) :
    m'.Inv n := by
  obtain ⟨hmain, hsec, hact⟩ := h
  cases hm with
  | noMenu => exact ⟨zeroIdx_mem hn.1, .inr rfl, nofun⟩
  | promote => exact ⟨hmain, hsec, nofun⟩
  | returned => exact ⟨hmain, .inl rfl, fun _ => rfl⟩
  | collapse => exact ⟨zeroIdx_mem hn.1, hsec, nofun⟩
  | up => exact ⟨menuUp_mem hn hmain, hsec, hact⟩
  | down => exact ⟨menuDown_mem hn hmain, hsec, hact⟩
  | openFlow | closeFlow => exact ⟨hmain, hsec, hact⟩

/-- A property of the menu registers that every move keeps is kept by all of them. -/
theorem menuMoves_keep {s t : State} {P : MenuRegs → Prop}
    (hP : ∀ m m', MenuRegs.Move s.params.nMain m m' → P m → P m') (h : s.MenuMoves t) (hs : P s.menu) : P t.menu := by
  unfold State.MenuMoves at h
  generalize t.menu = m at h ⊢
  induction h with
  | refl => exact hs
  | tail _ hm ih => exact hP _ _ hm ih

theorem reset_inv {n : Nat} (hn : 1 ≤ n) : MenuRegs.reset.Inv n :=
  ⟨zeroIdx_mem hn, .inl rfl, nofun⟩

/-- Settles O55: reset establishes the invariant, every other step is moves of the menu registers, and no step writes
`N_MAIN`. -/
theorem menuInvariantIsKept : Obligations.MenuInvariantIsKept := by
  intro s t hs h
  obtain ⟨hn, hm⟩ := (menuInv_iff s).1 hs
  have hp : t.params = s.params := (parametersAndStrapsAreConstant s t h).1
  rw [menuInv_iff, hp]
  refine ⟨hn, ?_⟩
  by_cases hr : s.nextTurn = .env .reset
  · rw [step_of_env hr] at h
    cases h
    exact reset_inv hn.1
  · exact menuMoves_keep (fun _ _ => inv_of_move hn) (step_menuMoves h hr) hm

/-! After reset -/

theorem atReset_chip (p : Params) (e : EnvInputs) (c : Chip) : (State.atReset p e).chip[c] = ChipRegs.reset := by
  simp [State.atReset]

theorem atReset_enc (p : Params) (e : EnvInputs) (i : EncId) : (State.atReset p e).enc[i] = EncState.reset := by
  simp [State.atReset]

/-- R270: every handler is idle, whatever the parameters and the environment. -/
theorem atReset_isrState (p : Params) (e : EnvInputs) (c : Chip) : (State.atReset p e).chip[c].isrState = .IDLE := by
  rw [atReset_chip]; rfl

theorem atReset_sectionQuiet (p : Params) (e : EnvInputs) : (State.atReset p e).SectionQuiet :=
  fun _ => atReset_isrState p e

theorem atReset_analogQuiet (p : Params) (e : EnvInputs) : (State.atReset p e).AnalogQuiet :=
  fun _ => atReset_isrState p e

theorem atReset_menuInv {p : Params} (hn : 1 ≤ p.nMain ∧ p.nMain ≤ 127) (e : EnvInputs) : (State.atReset p e).MenuInv :=
  (menuInv_iff _).2 ⟨hn, reset_inv hn.1⟩

/-- No change is pending (R270). -/
theorem atReset_changesLatched (p : Params) (e : EnvInputs) : (State.atReset p e).ChangesLatched := by
  intro c _ hpend
  rw [atReset_chip] at hpend
  exact absurd rfl hpend

theorem atReset_partnerReady {p : Params} (hm : p.pinMap.Wf p.nSw) (e : EnvInputs) : (State.atReset p e).PartnerReady := by
  refine ⟨hm, fun c hc => ?_⟩
  rw [atReset_isrState] at hc
  cases hc

/-- The registers fit after reset as soon as the parameters and the environment's inputs do (R10, R270). -/
theorem atReset_registersFit {p : Params} {e : EnvInputs} (hw : p.WidthsWf) (hs : SampleFits p.adcW p.smoothInit)
    (hadc : ∀ v ∈ e.adc, SampleFits p.adcW v) (hcal : ∀ i : Button, SampleFits p.adcW e.calStore[i])
    (hwig : SampleFits p.adcW e.wiggleStore) : (State.atReset p e).RegistersFit where
  widths := hw
  smoothInit := hs
  acc i := by
    rw [atReset_enc]
    exact ⟨neg_nonpos.2 (accMax_nonneg _), accMax_nonneg _⟩
  fgTmp := ⟨neg_nonpos.2 (by positivity), show (0 : Int) < _ by positivity⟩
  smoothed := hs
  smoothedPrev := hs
  cal i := by simp [SampleFits, State.atReset, AbcRegs.reset]
  wiggleRoom := Nat.two_pow_pos _
  adc := hadc
  calStore := hcal
  wiggleStore := hwig

/-- Settles O11: the defaults meet what the invariants ask of the parameters and of the environment. -/
theorem resetMeetsTheInvariants : Obligations.ResetMeetsTheInvariants := by
  have hpins : defaultParams.pinMap.Wf defaultParams.nSw := by decide
  have hcal : ∀ i : Button, SampleFits defaultParams.adcW EnvInputs.initial.calStore[i] := by decide
  exact ⟨atReset_sectionQuiet _ _, atReset_analogQuiet _ _, atReset_menuInv (by decide) _,
    atReset_registersFit (by decide) (by decide) nofun hcal (by decide),
    atReset_changesLatched _ _, atReset_partnerReady hpins _⟩

end Sys2Proof.Machine
end

section
/-! PROOFS. The foreground and the environment leave the handlers' states alone (R49): no operation of the foreground but
`px.init` writes a chip's registers, and the foreground is never asked for `px.isr` (R74). -/

namespace Sys2Proof.Machine

theorem chip_set_self (v : Vector ChipRegs Config.nChip) (c : Chip) (r : ChipRegs) : (v.set c r)[c] = r := by simp

theorem chip_set_ne (v : Vector ChipRegs Config.nChip) {c d : Chip} (h : d ≠ c) (r : ChipRegs) :
    (v.set c r)[d] = v[d] := by
  simp [Fin.val_ne_of_ne h.symm]

/-! Operations of the foreground that leave the chips alone: all but `px.init` -/

theorem classifyRespond_chip (v : Sample) (s : State) : (s.classifyRespond v).chip = s.chip := by
  unfold State.classifyRespond; split <;> rfl

theorem sampleOnce_chip (s : State) : s.sampleOnce.chip = s.chip := by
  unfold State.sampleOnce; split <;> rfl

theorem pollPass_chip (s : State) : s.pollPass.chip = s.chip := by
  cases hadc : s.env.adc with
  | nil => rw [pollPass_nil hadc]
  | cons raw rest =>
    by_cases hs : s.params.floatSentinel = some raw
    · rw [pollPass_sentinel hadc hs]; rfl
    · rw [pollPass_cons hadc hs]
      split
      · exact classifyRespond_chip _ _
      · rfl

theorem execAbcClassify_chip {v : Word} {s t : State} (h : execAbcClassify v s = .next t) : t.chip = s.chip := by
  unfold execAbcClassify at h
  split at h <;> cases h
  · exact classifyRespond_chip v s
  · rfl

theorem execAbcCalload_chip {i : BitVec 5} {v : Word} {s t : State} (h : execAbcCalload i v s = .next t) :
    t.chip = s.chip := by
  unfold execAbcCalload at h
  split at h
  · split at h <;> cases h <;> rfl
  · cases h; rfl

theorem execAbcWrload_chip {v : Word} {s t : State} (h : execAbcWrload v s = .next t) : t.chip = s.chip := by
  unfold execAbcWrload at h; split at h <;> cases h <;> rfl

theorem execQdecProcess_chip {e : EncId} {s t : State} (h : execQdecProcess e s = .next t) : t.chip = s.chip := by
  unfold execQdecProcess at h; split at h <;> cases h <;> rfl

theorem execPxTake_chip {s t : State} (h : execPxTake s = .next t) : t.chip = s.chip := by
  unfold execPxTake at h; split at h <;> cases h <;> rfl

theorem promote_chip (s : State) : s.promote.chip = s.chip := by
  unfold State.promote; split <;> rfl

theorem menuReturn_chip (s : State) : s.menuReturn.chip = s.chip := by
  unfold State.menuReturn; split <;> rfl

theorem select_chip (s : State) : s.select.chip = s.chip := by
  unfold State.select
  split
  · rfl
  · exact menuReturn_chip _

theorem navigate_chip (m : Idx) (s : State) : (s.navigate m).chip = s.chip := by
  simp only [State.navigate]; split <;> rfl

theorem mapFlow_chip (s : State) : s.mapFlow.chip = s.chip := by
  unfold State.mapFlow; split <;> rfl

theorem runAction_chip (a : Action) (s : State) : (s.runAction a).chip = s.chip := by
  cases a
  case SELECT => exact select_chip s
  case MENU_UP => exact navigate_chip _ s
  case MENU_DOWN => exact navigate_chip _ s
  case MAP_FLOW => exact mapFlow_chip s
  all_goals rfl

theorem menuPress_chip (k : Button) (s : State) : (s.menuPress k).chip = s.chip := by
  obtain ⟨-, h⟩ | ⟨-, -, -, -, h⟩ | ⟨-, -, -, h⟩ := menuPress_cases k s <;> rw [h]
  · rfl
  · rfl
  · exact (runAction_chip _ _).trans (promote_chip s)

theorem pressUnlisted_chip (k : Idx) (s : State) : (s.pressUnlisted k).chip = s.chip := by
  obtain ⟨hk, h⟩ | ⟨-, h⟩ := pressUnlisted_cases k s <;> rw [h]
  · exact menuPress_chip _ s
  · rfl

theorem execMenuFlowkey_chip {k : Idx} {s t : State} (h : execMenuFlowkey k s = .next t) : t.chip = s.chip := by
  unfold execMenuFlowkey at h
  split at h
  · split at h <;> cases h <;> rfl
  · cases h; rfl

theorem exec_chip {i : Instr} {s t : State} (hinit : ∀ c, i ≠ .pxInit c) (hisr : ∀ c, i ≠ .pxIsr c)
    (h : exec i s = .next t) : t.chip = s.chip := by
  cases i with
  | cli | sei | qdecUpdate | abcSettle => cases h; rfl
  | qdecProcess => exact execQdecProcess_chip h
  | abcPoll => cases h; exact pollPass_chip _
  | abcSample => cases h; exact sampleOnce_chip s
  | abcClassify => exact execAbcClassify_chip h
  | abcCalload => exact execAbcCalload_chip h
  | abcWrload => exact execAbcWrload_chip h
  | pxInit c => exact absurd rfl (hinit c)
  | pxIsr c => exact absurd rfl (hisr c)
  | pxTake => exact execPxTake_chip h
  | menuFlowkey => exact execMenuFlowkey_chip h
  | menuPress0 | menuPress1 | menuPress2 | menuPress3 | menuPress4 | menuPress5 | menuPress6 | menuPress7 | menuPress8
  | menuPress9 | menuPress10 | menuPress11 | menuPress12 | menuPress13 | menuPress14 | menuPress15 | menuPress16
  | menuPress17 => cases h; exact menuPress_chip _ s

theorem continueOperation_chip (s : State) : s.continueOperation.chip = s.chip := by
  unfold State.continueOperation
  split
  · rfl
  · rfl
  · exact sampleOnce_chip s
  · exact menuReturn_chip s
  · split
    · exact pollPass_chip s
    · rfl
    · rfl

theorem phaseEnd_chip (s : State) : s.phaseEnd.chip = s.chip := by
  unfold State.phaseEnd; split <;> rfl

theorem routeResult_chip (s : State) : s.routeResult.chip = s.chip := by
  unfold State.routeResult
  split
  · split <;> rfl
  · rfl
  · split
    · rfl
    · split <;> rfl
  all_goals rfl

theorem advance_chip (s : State) : s.advance.chip = s.chip := by
  unfold State.advance
  split
  · rfl
  · exact phaseEnd_chip s

theorem afterOperation_chip (s : State) : s.afterOperation.chip = s.chip := by
  unfold State.afterOperation
  split
  · rfl
  · split
    · rfl
    · exact (advance_chip _).trans (routeResult_chip s)

/-! What the foreground is asked: never to start a handler (R74) -/

/-- The request is not `px.isr`, which hardware alone starts. -/
def NoIsr (q : Request) : Prop := ∀ c, q ≠ .op (.pxIsr c)

theorem noIsr_commandRequest (adcW : Nat) (w d : Word) : NoIsr (commandRequest adcW w d) := by
  intro c
  unfold commandRequest
  split
  · nofun
  · rename_i i hne hdec
    rintro ⟨⟩
    exact hne c rfl
  · nofun
  · nofun

theorem noIsr_pressRequest (k : Idx) : NoIsr (pressRequest k) := by
  intro c
  unfold pressRequest
  split
  · rename_i i hi
    rintro ⟨⟩
    unfold pressOf at hi
    split at hi <;> cases hi
  · nofun

theorem noIsr_dispatchRequest (s : State) : NoIsr s.dispatchRequest := by
  unfold State.dispatchRequest
  split
  · nofun
  · exact noIsr_pressRequest _

theorem noIsr_of_mem_critical {i : Instr} (hi : ∀ c, i ≠ .pxIsr c) {q : Request} (h : q ∈ critical i) : NoIsr q := by
  rintro c rfl
  simp only [critical, List.mem_cons, Request.op.injEq, reduceCtorEq, List.not_mem_nil, or_false, false_or] at h
  exact hi c h.symm

theorem noIsr_of_mem_bootRequests {s : State} {q : Request} (h : q ∈ s.bootRequests) : NoIsr q := by
  rintro c rfl
  unfold State.bootRequests at h
  split at h <;> simp at h

theorem noIsr_of_mem_phaseRequests {s : State} {q : Request} (h : q ∈ s.phaseRequests) : NoIsr q := by
  unfold State.phaseRequests at h
  split at h
  · exact noIsr_of_mem_bootRequests h
  · exact noIsr_of_mem_critical (by nofun) h
  · obtain ⟨e, -, he⟩ := List.mem_flatMap.1 h
    exact noIsr_of_mem_critical (by nofun) he
  · obtain rfl := List.mem_singleton.1 h
    nofun
  · obtain rfl := List.mem_singleton.1 h
    nofun
  · split at h
    · cases h
    · obtain rfl := List.mem_singleton.1 h
      exact noIsr_dispatchRequest s

theorem noIsr_sequencerRequest {s : State} {q : Request} (h : s.sequencerRequest = some q) : NoIsr q :=
  noIsr_of_mem_phaseRequests (List.mem_of_getElem? h)

/-! The handlers' states under the steps of the foreground and of the environment -/

theorem execPxInit_isrState {c : Chip} {s t : State} (h : execPxInit c s = .next t) (d : Chip) :
    t.chip[d].isrState = s.chip[d].isrState := by
  have hset (r : ChipRegs) (hr : r.isrState = s.chip[c].isrState) :
      (s.chip.set c r)[d].isrState = s.chip[d].isrState := by
    by_cases hd : d = c
    · rw [hd, chip_set_self, hr]
    · rw [chip_set_ne _ hd]
  unfold execPxInit at h
  split at h <;> cases h <;> exact hset _ rfl

theorem exec_isrState {i : Instr} {s t : State} (hisr : ∀ c, i ≠ .pxIsr c) (h : exec i s = .next t) (d : Chip) :
    t.chip[d].isrState = s.chip[d].isrState := by
  by_cases hinit : ∃ c, i = .pxInit c
  · obtain ⟨c, rfl⟩ := hinit
    exact execPxInit_isrState h d
  · rw [exec_chip (not_exists.1 hinit) hisr h]

theorem issue_isrState {q : Request} {s t : State} (hq : NoIsr q) (h : s.issue q = .next t) (d : Chip) :
    t.chip[d].isrState = s.chip[d].isrState := by
  obtain ⟨i, u, rfl, hu, rfl⟩ | ⟨k, -, rfl⟩ | ⟨-, rfl⟩ := issue_cases h
  · rw [afterOperation_chip]
    exact exec_isrState (fun c hi => hq c (hi ▸ rfl)) hu d
  · rw [afterOperation_chip, pressUnlisted_chip]; rfl
  · rfl

/-- The foreground enters no handler and returns from none. -/
theorem foregroundStep_isrState {s t : State} (h : s.foregroundStep = .next t) (d : Chip) :
    t.chip[d].isrState = s.chip[d].isrState := by
  obtain rfl | ⟨-, -, rfl⟩ | ⟨-, -, -, w, e, rest, -, hq⟩ | ⟨-, -, -, q, hs, hq⟩ | ⟨-, -, -, -, rfl⟩ :=
    foregroundStep_cases h
  · rfl
  · rw [afterOperation_chip, continueOperation_chip]
  · exact issue_isrState (noIsr_commandRequest _ w e) hq d
  · exact issue_isrState (noIsr_sequencerRequest hs) hq d
  · rw [phaseEnd_chip]

/-- R49 (c): the foreground takes no step while a handler has not returned. -/
theorem foregroundStep_of_running {s : State} {c : Chip} (h : s.chip[c].isrState ≠ .IDLE) :
    s.foregroundStep = .next s := by
  have hm : ¬ s.fgMayStep = true := fun hm => h ((fgMayStep_iff s).1 hm c)
  unfold State.foregroundStep
  rw [if_neg hm]

theorem detectChange_isrState (r : ChipRegs) (p : Pin) : (r.detectChange p).isrState = r.isrState := by
  unfold ChipRegs.detectChange; split <;> rfl

theorem envPin_isrState (c : Chip) (p : Pin) (v : Bool) (s : State) (d : Chip) :
    (s.envPin c p v).chip[d].isrState = s.chip[d].isrState := by
  unfold State.envPin
  split
  · rfl
  · simp only [State.setChip_chip, State.setEnv_chip]
    by_cases hd : d = c
    · rw [hd, chip_set_self, detectChange_isrState]
    · rw [chip_set_ne _ hd]

theorem envStep_isrState {e : EnvStep} (he : e ≠ .reset) (s : State) (d : Chip) :
    (s.envStep e).chip[d].isrState = s.chip[d].isrState := by
  cases e
  case reset => exact absurd rfl he
  case pin c p v => exact envPin_isrState c p v s d
  all_goals rfl

theorem envStep_sys {e : EnvStep} (he : e ≠ .reset) (s : State) : (s.envStep e).sys = s.sys := by
  cases e
  case reset => exact absurd rfl he
  case pin c p v =>
    simp only [State.envStep, State.envPin]
    split <;> rfl
  all_goals rfl

end Sys2Proof.Machine
end

section
/-! PROOFS. A step of a handler: the moves that R147 to R151 name on the registers of its own chip, and their frame (R254). -/

namespace Sys2Proof.Machine

/-- The pin is a contact of an encoder (R141). -/
def PinMap.IsContact (m : PinMap) (c : Chip) (p : Pin) : Prop := ∃ e, m.kind c p = .ENC_A e ∨ m.kind c p = .ENC_B e

/-- One micro-step of the handler of chip `c` on the chip's registers, the chip reporting pending pins from `start` on. -/
inductive ChipRegs.Move (m : PinMap) (c : Chip) (start : Pin) : ChipRegs → ChipRegs → Prop
  /-- `ENTRY` (R147) -/
  | enter (r : ChipRegs) : r.isrState = .IDLE → r.irqLatch = true → r.pxConfigured = true →
      Move m c start r { r with irqLatch := false, isrState := .FETCH }
  /-- `FETCH` with nothing pending: the handler returns (R148, R253) -/
  | leave (r : ChipRegs) : r.isrState = .FETCH → r.pend = 0 → Move m c start r { r with isrState := .IDLE }
  /-- `FETCH` of a pending pin (R148) -/
  | fetch (r : ChipRegs) (p : Pin) : r.isrState = .FETCH → reportedPin r.pend start = some p →
      Move m c start r { r with pend := clearPin r.pend p, curPin := p, isrState := .READ }
  /-- `READ` of a switch or an unused pin (R149, R150) -/
  | served (r : ChipRegs) : r.isrState = .READ → ¬ m.IsContact c r.curPin →
      Move m c start r { r with isrState := .FETCH }
  /-- `READ` of an encoder contact (R149) -/
  | contact (r : ChipRegs) (v : Bool) : r.isrState = .READ → m.IsContact c r.curPin →
      Move m c start r { r with curLevel := v, isrState := .PARTNER }
  /-- `PARTNER` (R151) -/
  | feed (r : ChipRegs) : r.isrState = .PARTNER → m.IsContact c r.curPin →
      Move m c start r { r with isrState := .FETCH }

/-- From `s` to `t` handler `c` took one micro-step, which wrote the decoders, `pendingButton` and the registers of its
chip at most (R254). -/
def State.HandlerMoves (c : Chip) (s t : State) : Prop :=
  ∃ enc b r, ChipRegs.Move s.params.pinMap c s.report[c] s.chip[c] r ∧
    t = { s with enc := enc, pendingButton := b, chip := s.chip.set c r }

theorem handlerEnabled_iff (s : State) (c : Chip) :
    s.handlerEnabled c = true ↔ s.chip[c].isrState = .IDLE ∧ s.chip[c].irqLatch = true ∧
      s.chip[c].pxConfigured = true ∧ s.sys.irqEnable = true ∧ s.straps.acqMode = .EXPANDER := by
  simp only [State.handlerEnabled, Bool.and_eq_true, beq_iff_eq]
  tauto

theorem handlerRunning_iff (s : State) (c : Chip) : s.handlerRunning c = true ↔ s.chip[c].isrState ≠ .IDLE := by
  simp only [State.handlerRunning, bne_iff_ne]

theorem enterHandler_moves {c : Chip} {s : State} (h : s.handlerEnabled c = true) : s.HandlerMoves c (s.enterHandler c) := by
  obtain ⟨hidle, hlatch, hconf, -, -⟩ := (handlerEnabled_iff s c).1 h
  exact ⟨_, _, _, .enter _ hidle hlatch hconf, rfl⟩

theorem isrFetch_moves {c : Chip} {s : State} (h : s.chip[c].isrState = .FETCH) : s.HandlerMoves c (s.isrFetch c) := by
  unfold State.isrFetch
  split
  · rename_i hp
    exact ⟨_, _, _, .leave _ h ((reportedPin_eq_none _ _).1 hp), rfl⟩
  · rename_i p hp
    exact ⟨_, _, _, .fetch _ p h hp, rfl⟩

theorem isrRead_moves {c : Chip} {s : State} (h : s.chip[c].isrState = .READ) : s.HandlerMoves c (s.isrRead c) := by
  simp only [State.isrRead]
  split <;> rename_i hk
  · have hno : ¬ s.params.pinMap.IsContact c s.chip[c].curPin := by simp [PinMap.IsContact, hk, -Fin.getElem_fin]
    split <;> exact ⟨_, _, _, .served _ h hno, rfl⟩
  · exact ⟨_, _, _, .contact _ _ h ⟨_, .inl hk⟩, rfl⟩
  · exact ⟨_, _, _, .contact _ _ h ⟨_, .inr hk⟩, rfl⟩
  · have hno : ¬ s.params.pinMap.IsContact c s.chip[c].curPin := by simp [PinMap.IsContact, hk, -Fin.getElem_fin]
    exact ⟨_, _, _, .served _ h hno, rfl⟩

theorem isrPartner_moves {c : Chip} {s t : State} (h : s.chip[c].isrState = .PARTNER) (ht : s.isrPartner c = .next t) :
    s.HandlerMoves c t := by
  simp only [State.isrPartner] at ht
  split at ht <;> cases ht
  · exact ⟨_, _, _, .feed _ h ⟨_, .inl ‹_›⟩, rfl⟩
  · exact ⟨_, _, _, .feed _ h ⟨_, .inr ‹_›⟩, rfl⟩

/-- What `px.isr` can do where there is a step to take. -/
theorem execPxIsr_moves {c : Chip} {s t : State} (hm : s.handlerMayStep c = true) (h : execPxIsr c s = .next t) :
    s.HandlerMoves c t := by
  unfold execPxIsr at h
  split at h <;> rename_i hst
  · have he : s.handlerEnabled c = true := by
      simpa [State.handlerMayStep, State.handlerRunning, hst, -Fin.getElem_fin] using hm
    cases h
    rw [if_pos he]
    exact enterHandler_moves he
  · cases h; exact isrFetch_moves hst
  · cases h; exact isrRead_moves hst
  · exact isrPartner_moves hst h

/-- With a pin map that meets R141 a handler that runs goes on: in `PARTNER` it stands at an encoder contact (R149). -/
theorem execPxIsr_goesOn {c : Chip} {s : State} {n : Nat} (hw : s.params.pinMap.Wf n)
    (hp : s.chip[c].isrState = .PARTNER → s.params.pinMap.IsContact c s.chip[c].curPin) : GoesOn (execPxIsr c s) := by
  unfold execPxIsr
  split
  · exact ⟨_, rfl⟩
  · exact ⟨_, rfl⟩
  · exact ⟨_, rfl⟩
  · obtain ⟨e, hk⟩ := hp ‹_›
    obtain ⟨q, hq⟩ := partner_of_contact hw hk
    unfold State.isrPartner
    rcases hk with hk | hk <;> simp only [hk, hq] <;> exact ⟨_, rfl⟩

/-- A handler's turn: nothing happens where it may not step, and else it takes a micro-step, with the chip's report order
chosen and, at the entry, a word on the trace port. -/
theorem handlerStep_moves {c : Chip} {p : Pin} {s t : State} (h : s.handlerStep c p = .next t) :
    t = s ∨ (s.handlerMayStep c = true ∧ ∃ out, ({ s.setReport c p with out := out } : State).HandlerMoves c t) := by
  obtain ⟨hr, hx⟩ | ⟨-, he, hx⟩ | ⟨-, -, rfl⟩ := handlerStep_cases h
  · have hm : s.handlerMayStep c = true := by simp [State.handlerMayStep, hr]
    exact .inr ⟨hm, _, execPxIsr_moves hm hx⟩
  · have hm : s.handlerMayStep c = true := by simp [State.handlerMayStep, he]
    exact .inr ⟨hm, _, execPxIsr_moves (s := (s.setReport c p).pushTrace _) hm hx⟩
  · exact .inl rfl

theorem move_idle {m : PinMap} {c : Chip} {start : Pin} {r r' : ChipRegs} (h : ChipRegs.Move m c start r r')
    (hidle : r'.isrState = .IDLE) : r.isrState = .FETCH ∧ r.pend = 0 := by
  cases h with
  | leave hfetch hpend => exact ⟨hfetch, hpend⟩
  | enter | fetch | served | contact | feed => cases hidle

theorem handlerMoves_chip_self {c : Chip} {s t : State} (h : s.HandlerMoves c t) :
    ChipRegs.Move s.params.pinMap c s.report[c] s.chip[c] t.chip[c] := by
  obtain ⟨_, _, r, hr, rfl⟩ := h
  simpa only [chip_set_self] using hr

theorem handlerMoves_chip_ne {c d : Chip} {s t : State} (hd : d ≠ c) (h : s.HandlerMoves c t) : t.chip[d] = s.chip[d] := by
  obtain ⟨_, _, r, -, rfl⟩ := h
  exact chip_set_ne _ hd r

theorem move_pxConfigured {m : PinMap} {c : Chip} {start : Pin} {r r' : ChipRegs} (h : ChipRegs.Move m c start r r') :
    r'.pxConfigured = r.pxConfigured := by
  cases h <;> rfl

end Sys2Proof.Machine
end

section
/-! PROOFS. O15 and O7: whose turn enters and runs a handler (R49, R51, R23). -/

namespace Sys2Proof.Machine

/-- R49: what a step does to the handlers' states, with the enable bit and the straps that gate the entry. Either no handler
is inside afterwards (the foreground acted, which it does only then, or reset), or nothing of it changed, or a handler
that might step did. -/
theorem step_handlers {s t : State} (h : step s = .next t) :
    (∀ c : Chip, t.chip[c].isrState = .IDLE) ∨
    (t.sys = s.sys ∧ t.straps = s.straps ∧ ∀ c : Chip, t.chip[c].isrState = s.chip[c].isrState) ∨
    (t.sys = s.sys ∧ t.straps = s.straps ∧ ∃ c, s.handlerMayStep c = true) := by
  obtain ⟨-, hf⟩ | ⟨c, p, -, hi⟩ | ⟨e, -, rfl⟩ := step_cases h
  · by_cases hidle : ∀ c : Chip, s.chip[c].isrState = .IDLE
    · exact .inl fun c => (foregroundStep_isrState hf c).trans (hidle c)
    · obtain ⟨c, hc⟩ := not_forall.1 hidle
      rw [foregroundStep_of_running (s := s.popTurn) hc] at hf
      cases hf
      exact .inr (.inl ⟨rfl, rfl, fun _ => rfl⟩)
  · obtain rfl | ⟨hm, _, _, _, _, _, rfl⟩ := handlerStep_moves hi
    · exact .inr (.inl ⟨rfl, rfl, fun _ => rfl⟩)
    · exact .inr (.inr ⟨rfl, rfl, c, hm⟩)
  · by_cases he : e = .reset
    · subst he
      exact .inl (atReset_isrState s.params s.env)
    · have hstraps := (config_eq_iff.1 (envStep_config he s.popTurn)).2
      exact .inr (.inl ⟨envStep_sys he _, hstraps, envStep_isrState he _⟩)

/-- While the handlers are idle, one that may step is one whose entry is enabled. -/
theorem handlerEnabled_of_mayStep {s : State} {c : Chip} (hidle : s.chip[c].isrState = .IDLE)
    (h : s.handlerMayStep c = true) : s.handlerEnabled c = true := by
  simpa [State.handlerMayStep, State.handlerRunning, hidle, -Fin.getElem_fin] using h

theorem step_keeps_sectionQuiet {s t : State} (hs : s.SectionQuiet) (h : step s = .next t) : t.SectionQuiet := by
  intro hmask
  obtain hidle | ⟨hsys, -, hkept⟩ | ⟨hsys, -, c, hc⟩ := step_handlers h
  · exact hidle
  · intro c
    rw [hkept]
    exact hs (hsys ▸ hmask) c
  · rw [hsys] at hmask
    obtain ⟨-, -, -, hena, -⟩ := (handlerEnabled_iff s c).1 (handlerEnabled_of_mayStep (hs hmask c) hc)
    exact absurd hena (by simp [hmask])

theorem step_keeps_analogQuiet {s t : State} (hs : s.AnalogQuiet) (h : step s = .next t) : t.AnalogQuiet := by
  intro hmode
  obtain hidle | ⟨-, hstraps, hkept⟩ | ⟨-, hstraps, c, hc⟩ := step_handlers h
  · exact hidle
  · intro c
    rw [hkept]
    exact hs (hstraps ▸ hmode) c
  · rw [hstraps] at hmode
    obtain ⟨-, -, -, -, hexp⟩ := (handlerEnabled_iff s c).1 (handlerEnabled_of_mayStep (hs hmode c) hc)
    exact absurd hexp (by simp [hmode])

/-- Settles O15: a handler steps only where it is inside or its entry is enabled, and both conditions gate the entry. -/
theorem handlersStayIdleMaskedOrAnalog : Obligations.HandlersStayIdleMaskedOrAnalog :=
  ⟨fun _ _ => step_keeps_sectionQuiet, fun _ _ => step_keeps_analogQuiet⟩

/-- Settles O7: the three cases of a handler's turn, the middle one being the enabled entry. -/
theorem handlerTurnRunsPxIsr : Obligations.HandlerTurnRunsPxIsr := by
  intro s c p hn
  rw [step_of_isr hn]
  have hrun := handlerRunning_iff s.popTurn c
  have hena := handlerEnabled_iff s.popTurn c
  refine ⟨fun hr => ?_, fun he => ?_, fun ⟨hidle, hno⟩ => ?_⟩ <;> unfold State.handlerStep
  · rw [if_pos (hrun.2 hr)]
  · rw [if_neg fun hr => hrun.1 hr he.1, if_pos (hena.2 he)]
    rfl
  · have hne : ¬ s.popTurn.handlerEnabled c = true := by
      intro he
      obtain ⟨-, hlatch, hconf, hirq, hexp⟩ := hena.1 he
      simp only [State.popTurn_chip, State.popTurn_sys, State.popTurn_straps] at hlatch hconf hirq hexp
      simp [hlatch, hconf, hirq, hexp, -Fin.getElem_fin] at hno
    rw [if_neg fun hr => hrun.1 hr hidle, if_neg hne]

end Sys2Proof.Machine
end

section
/-! PROOFS. O8: the foreground waits for the handlers, and a handler need not return (R49, R156). The endless run keeps
an invariant that says at which place of a service round the handler stands. -/

namespace Sys2Proof.Machine

/-- R49, R148: a handler returns in its own `FETCH` with nothing pending, and in no other agent's step but reset. -/
theorem fetch_of_return {s t : State} {c : Chip} (h : step s = .next t) (hr : s.nextTurn ≠ .env .reset)
    (hrun : s.chip[c].isrState ≠ .IDLE) (hidle : t.chip[c].isrState = .IDLE) :
    s.chip[c].isrState = .FETCH ∧ s.chip[c].pend = 0 := by
  obtain ⟨-, hf⟩ | ⟨d, p, -, hi⟩ | ⟨e, hn, rfl⟩ := step_cases h
  · exact absurd ((foregroundStep_isrState hf c).symm.trans hidle) hrun
  · obtain rfl | ⟨-, out, hm⟩ := handlerStep_moves hi
    · exact absurd hidle hrun
    · by_cases hd : c = d
      · subst hd
        have hmove := handlerMoves_chip_self hm
        exact move_idle hmove hidle
      · rw [handlerMoves_chip_ne hd hm] at hidle
        exact absurd hidle hrun
  · have he : e ≠ .reset := fun he => hr (he ▸ hn)
    exact absurd ((envStep_isrState he s.popTurn c).symm.trans hidle) hrun

/-- A property that every step keeps, while it goes on, holds along the whole run. -/
theorem run_keeps {P : State → Prop} (hP : ∀ s, P s → ∃ t, step s = .next t ∧ P t) (n : Nat) :
    ∀ s, P s → ∃ t, core.run n s = .next t ∧ P t := by
  induction n with
  | zero => exact fun s hs => ⟨s, rfl, hs⟩
  | succ n ih =>
    intro s hs
    obtain ⟨t, hst, ht⟩ := hP s hs
    obtain ⟨u, hu, hPu⟩ := ih t ht
    refine ⟨u, ?_, hPu⟩
    have hstep : core.step s = .next t := hst
    simpa only [Host.Core.run, hstep] using hu

/-- From `s` to `t` only pin levels changed and handlers stepped: what the foreground, the host and the other inputs hold,
and the repeating round of turns, are as they were. -/
def State.ForegroundStands (s t : State) : Prop :=
  ∃ enc b chip level report turns, t = { s with
    enc := enc, pendingButton := b, chip := chip, env := { s.env with level := level }, report := report, turns := turns }

theorem foregroundStands_refl (s : State) : s.ForegroundStands s := ⟨_, _, _, _, _, _, rfl⟩

theorem foregroundStands_trans {s t u : State} (h : s.ForegroundStands t) (h' : t.ForegroundStands u) :
    s.ForegroundStands u := by
  obtain ⟨_, _, _, _, _, _, rfl⟩ := h
  obtain ⟨_, _, _, _, _, _, rfl⟩ := h'
  exact ⟨_, _, _, _, _, _, rfl⟩

/-- The turn that `PARTNER` takes of a service round: one for an encoder contact, none else. -/
def partnerTurns (m : PinMap) (c : Chip) (p : Pin) : List Turn :=
  match m.kind c p with
  | .ENC_A _ | .ENC_B _ => [.isr c p]
  | .SWITCH _ | .UNUSED => []

theorem serviceRound_eq (m : PinMap) (c : Chip) (p : Pin) (v : Bool) :
    serviceRound m c p v = .env (.pin c p v) :: .isr c p :: .isr c p :: partnerTurns m c p := by
  unfold serviceRound partnerTurns
  cases m.kind c p <;> rfl

theorem partnerTurns_of_contact {m : PinMap} {c : Chip} {p : Pin} (h : m.IsContact c p) :
    partnerTurns m c p = [.isr c p] := by
  unfold partnerTurns
  obtain ⟨e, h | h⟩ := h <;> rw [h]

theorem partnerTurns_of_not_contact {m : PinMap} {c : Chip} {p : Pin} (h : ¬ m.IsContact c p) :
    partnerTurns m c p = [] := by
  unfold partnerTurns
  split <;> rename_i hk
  · exact absurd ⟨_, .inl hk⟩ h
  · exact absurd ⟨_, .inr hk⟩ h
  · rfl
  · rfl

/-- The pin is driven to `v` in this round of the service of pin `p` by the handler of a configured chip `c`, and `s` stands
where the turns `l` of the round are still to come. -/
inductive State.Serves (m : PinMap) (c : Chip) (p : Pin) (v : Bool) (s : State) : List Turn → Prop
  | change : s.chip[c].isrState = .FETCH → s.pinLevel c p = !v →
      Serves m c p v s (.env (.pin c p v) :: .isr c p :: .isr c p :: partnerTurns m c p)
  | fetch : s.chip[c].isrState = .FETCH → readPin s.chip[c].pend p = true → s.pinLevel c p = v →
      Serves m c p v s (.isr c p :: .isr c p :: partnerTurns m c p)
  | read : s.chip[c].isrState = .READ → s.chip[c].curPin = p → s.pinLevel c p = v →
      Serves m c p v s (.isr c p :: partnerTurns m c p)
  | partner : s.chip[c].isrState = .PARTNER → s.chip[c].curPin = p → s.pinLevel c p = v → m.IsContact c p →
      Serves m c p v s [.isr c p]
  | done : s.chip[c].isrState = .FETCH → s.pinLevel c p = v → Serves m c p v s []

/-- The handler is inside through the whole round. -/
theorem serves_running {m : PinMap} {c : Chip} {p : Pin} {v : Bool} {s : State} {l : List Turn} (h : s.Serves m c p v l) :
    s.chip[c].isrState ≠ .IDLE := by
  cases h <;> simp_all [-Fin.getElem_fin]

/-- In `PARTNER` the pin served is an encoder contact (R149). -/
theorem serves_contact {m : PinMap} {c : Chip} {p : Pin} {v : Bool} {s : State} {l : List Turn}
    (h : s.Serves m c p v l) (hp : s.chip[c].isrState = .PARTNER) : m.IsContact c s.chip[c].curPin := by
  cases h with
  | partner _ hcur _ hc => exact hcur ▸ hc
  | change hst | fetch hst | read hst | done hst => exact absurd (hst.symm.trans hp) nofun

/-- The end of a round for one level is the beginning of the next round for the other. -/
theorem serves_next {m : PinMap} {c : Chip} {p : Pin} {v : Bool} {s : State} (h : s.Serves m c p v []) :
    s.Serves m c p (!v) (serviceRound m c p (!v)) := by
  rw [serviceRound_eq]
  generalize hl : ([] : List Turn) = l at h
  cases h with
  | done hst hlv => exact .change hst (by simpa using hlv)
  | change | fetch | read | partner => cases hl

/-- One turn led from `s` to `t`, where the turns `l` of the round are still to come, and the foreground stands where it
was. -/
structure State.ServesOn (c : Chip) (p : Pin) (v : Bool) (l : List Turn) (s t : State) : Prop where
  serves : t.Serves s.params.pinMap c p v l
  configured : t.chip[c].pxConfigured = true
  stands : s.ForegroundStands t
  turns : t.turns = s.comingTurns.tail

/-- R143: the change of the pin of a configured chip is pending after it. -/
theorem popTurn_envPin_servesOn {c : Chip} {p : Pin} {v : Bool} {s : State} (hconf : s.chip[c].pxConfigured = true)
    (hst : s.chip[c].isrState = .FETCH) (hlv : s.pinLevel c p = !v) :
    s.ServesOn c p v (.isr c p :: .isr c p :: partnerTurns s.params.pinMap c p) (s.popTurn.envPin c p v) := by
  have hne : s.popTurn.pinLevel c p ≠ v := ne_of_eq_of_ne hlv (Bool.not_ne_self v)
  have hdet : s.popTurn.chip[c].detectChange p = { s.chip[c] with
      pend := setPin s.chip[c].pend p, irqLatch := s.chip[c].irqLatch || s.chip[c].pend == 0 } := if_pos hconf
  unfold State.envPin
  rw [if_neg hne, hdet]
  refine ⟨.fetch ?_ ?_ ?_, ?_, ⟨_, _, _, _, _, _, rfl⟩, rfl⟩
  · simpa only [State.setChip_chip, chip_set_self] using hst
  · simp only [State.setChip_chip, chip_set_self, readPin_setPin, decide_true, Bool.or_true]
  · simp [State.pinLevel, readPin_writePin]
  · simpa only [State.setChip_chip, chip_set_self] using hconf

/-- A micro-step of the handler brings it to the next place of the round. -/
theorem serves_move {m : PinMap} {c : Chip} {p : Pin} {v : Bool} {s t : State} {l : List Turn}
    (h : s.Serves m c p v (.isr c p :: l)) (hmove : ChipRegs.Move m c p s.chip[c] t.chip[c])
    (hlv : t.pinLevel c p = s.pinLevel c p) : t.Serves m c p v l := by
  generalize hr : t.chip[c] = r at hmove
  cases h with
  | fetch hst hpend hv =>
    have hrep := reportedPin_start hpend
    cases hmove with
    | leave _ hzero => rw [(reportedPin_eq_none _ p).2 hzero] at hrep; cases hrep
    | fetch q _ hq =>
      obtain rfl : p = q := Option.some.inj (hrep.symm.trans hq)
      exact .read (by rw [hr]) (by rw [hr]) (hlv.trans hv)
    | enter h' | served h' | contact _ h' | feed h' => exact absurd (hst.symm.trans h') nofun
  | read hst hcur hv =>
    cases hmove with
    | served _ hno =>
      rw [partnerTurns_of_not_contact (hcur ▸ hno)]
      exact .done (by rw [hr]) (hlv.trans hv)
    | contact _ _ hc =>
      rw [partnerTurns_of_contact (hcur ▸ hc)]
      exact .partner (by rw [hr]) (by rw [hr]; exact hcur) (hlv.trans hv) (hcur ▸ hc)
    | enter h' | leave h' | fetch _ h' | feed h' => exact absurd (hst.symm.trans h') nofun
  | partner hst hcur hv hc =>
    cases hmove with
    | feed => exact .done (by rw [hr]) (hlv.trans hv)
    | enter h' | leave h' | fetch _ h' | served h' | contact _ h' => exact absurd (hst.symm.trans h') nofun

/-- A running handler's turn is a micro-step of it. -/
theorem step_of_isr_running {c : Chip} {p : Pin} {s : State} {n : Nat} (hw : s.params.pinMap.Wf n)
    (hn : s.nextTurn = .isr c p) (hrun : s.chip[c].isrState ≠ .IDLE)
    (hp : s.chip[c].isrState = .PARTNER → s.params.pinMap.IsContact c s.chip[c].curPin) :
    ∃ t, step s = .next t ∧ (s.popTurn.setReport c p).HandlerMoves c t := by
  have hr : s.popTurn.handlerRunning c = true := (handlerRunning_iff _ c).2 hrun
  have hm : (s.popTurn.setReport c p).handlerMayStep c = true := Bool.or_eq_true_iff.2 (.inl hr)
  obtain ⟨t, ht⟩ := execPxIsr_goesOn (s := s.popTurn.setReport c p) hw hp
  refine ⟨t, ?_, execPxIsr_moves hm ht⟩
  rw [step_of_isr hn, State.handlerStep, if_pos hr]
  exact ht

theorem handlerMoves_servesOn {c : Chip} {p : Pin} {v : Bool} {s t : State} {l : List Turn}
    (hconf : s.chip[c].pxConfigured = true) (h : s.Serves s.params.pinMap c p v (.isr c p :: l))
    (ht : (s.popTurn.setReport c p).HandlerMoves c t) : s.ServesOn c p v l t := by
  have hmove := handlerMoves_chip_self ht
  have hstart : (s.popTurn.setReport c p).report[c] = p := by simp
  rw [hstart] at hmove
  have hconf' := (move_pxConfigured hmove).trans hconf
  obtain ⟨_, _, _, -, rfl⟩ := ht
  exact ⟨serves_move h hmove rfl, hconf', ⟨_, _, _, _, _, _, rfl⟩, rfl⟩

/-- Each turn of the round brings the block to the next place of the round. -/
theorem step_servesOn {c : Chip} {p : Pin} {v : Bool} {s : State} {n : Nat} {x : Turn} {l : List Turn}
    (hw : s.params.pinMap.Wf n) (hconf : s.chip[c].pxConfigured = true) (h : s.Serves s.params.pinMap c p v (x :: l))
    (hn : s.nextTurn = x) : ∃ t, step s = .next t ∧ s.ServesOn c p v l t := by
  have hserves := h
  cases h with
  | change hst hlv => exact ⟨_, step_of_env hn, popTurn_envPin_servesOn hconf hst hlv⟩
  | fetch | read | partner =>
    obtain ⟨t, hst, ht⟩ := step_of_isr_running hw hn (serves_running hserves) (serves_contact hserves)
    exact ⟨t, hst, handlerMoves_servesOn hconf hserves ht⟩

/-- `s` stands in one of the two rounds that repeat, the first of which drives the pin to `!v` and the second to `v`. -/
def State.InRounds (m : PinMap) (c : Chip) (p : Pin) (v : Bool) (s : State) : Prop :=
  ∃ w x l rest, s.Serves m c p w (x :: l) ∧ s.comingTurns = x :: (l ++ rest) ∧
    (w = (!v) ∧ rest = serviceRound m c p v ∨ w = v ∧ rest = [])

theorem inRounds_of_done {m : PinMap} {c : Chip} {p : Pin} {v w : Bool} {s : State} {rest : List Turn}
    (h : s.Serves m c p w []) (hcoming : s.comingTurns = serviceRound m c p (!w) ++ rest)
    (hrest : (!w) = (!v) ∧ rest = serviceRound m c p v ∨ (!w) = v ∧ rest = []) : s.InRounds m c p v := by
  have hnext := serves_next h
  rw [serviceRound_eq] at hnext hcoming
  exact ⟨_, _, _, rest, hnext, hcoming, hrest⟩

/-- The restless environment of R156, seen from a state `t` of its run from `s`: the handler of chip `c` serves pin `p`, at
level `v` in `s`, round after round. -/
structure State.Restless (c : Chip) (p : Pin) (v : Bool) (s t : State) : Prop where
  configured : t.chip[c].pxConfigured = true
  stands : s.ForegroundStands t
  inRounds : t.InRounds s.params.pinMap c p v

theorem restless_start {c : Chip} {p : Pin} {s : State} (hconf : s.chip[c].pxConfigured = true)
    (hfetch : s.chip[c].isrState = .FETCH) (hturns : s.turns = [])
    (hcycle : s.turnCycle =
      serviceRound s.params.pinMap c p (!s.pinLevel c p) ++ serviceRound s.params.pinMap c p (s.pinLevel c p)) :
    s.Restless c p (s.pinLevel c p) s where
  configured := hconf
  stands := foregroundStands_refl s
  inRounds := inRounds_of_done (.done hfetch rfl) ((comingTurns_of_nil hturns).trans hcycle) (.inl ⟨rfl, rfl⟩)

theorem restless_step {c : Chip} {p : Pin} {v : Bool} {s t : State} (hw : s.params.pinMap.Wf s.params.nSw)
    (hcycle : s.turnCycle = serviceRound s.params.pinMap c p (!v) ++ serviceRound s.params.pinMap c p v)
    (h : s.Restless c p v t) : ∃ u, step t = .next u ∧ s.Restless c p v u := by
  obtain ⟨hconf, hstands, w, x, l, rest, hserves, hcoming, hrest⟩ := h
  have hparams : t.params = s.params := by obtain ⟨_, _, _, _, _, _, rfl⟩ := hstands; rfl
  rw [← hparams] at hw hserves
  obtain ⟨u, hu, hserves', hconf', hstands', hturns⟩ := step_servesOn hw hconf hserves (nextTurn_of_coming hcoming)
  have hstandsu := foregroundStands_trans hstands hstands'
  refine ⟨u, hu, hconf', hstandsu, ?_⟩
  rw [hparams] at hserves'
  rw [hcoming, List.tail_cons] at hturns
  cases l with
  | cons y l => exact ⟨w, y, l, rest, hserves', comingTurns_of_cons hturns, hrest⟩
  | nil =>
    obtain ⟨rfl, rfl⟩ | ⟨rfl, rfl⟩ := hrest
    · refine inRounds_of_done (rest := []) hserves' ?_ (.inr ⟨Bool.not_not v, rfl⟩)
      rw [List.nil_append, serviceRound_eq] at hturns
      rw [Bool.not_not, List.append_nil, serviceRound_eq]
      exact comingTurns_of_cons hturns
    · have hcycleu : u.turnCycle = s.turnCycle := by obtain ⟨_, _, _, _, _, _, rfl⟩ := hstandsu; rfl
      exact inRounds_of_done hserves' ((comingTurns_of_nil hturns).trans (hcycleu.trans hcycle)) (.inl ⟨rfl, rfl⟩)

theorem restless_running {c : Chip} {p : Pin} {v : Bool} {s t : State} (h : s.Restless c p v t) :
    t.chip[c].isrState ≠ .IDLE := by
  obtain ⟨-, -, _, _, _, _, hserves, -⟩ := h
  exact serves_running hserves

/-- Settles O8: the foreground's turn is empty, the return is `fetch_of_return`, and the endless run keeps `State.Restless`. -/
theorem foregroundWaitsForHandlers : Obligations.ForegroundWaitsForHandlers := by
  refine ⟨fun s c hn hrun => ?_, fun s t c => fetch_of_return, fun s c p hw hconf hfetch hturns hcycle n => ?_⟩
  · rw [step_of_fg hn, foregroundStep_of_running (s := s.popTurn) hrun]
  · obtain ⟨t, hrun, ht⟩ := run_keeps (P := s.Restless c p (s.pinLevel c p)) (fun t => restless_step hw hcycle) n s
      (restless_start hconf hfetch hturns hcycle)
    refine ⟨t, hrun, restless_running ht, ?_⟩
    obtain ⟨-, ⟨_, _, _, _, _, _, rfl⟩, -⟩ := ht
    exact ⟨rfl, rfl, rfl, rfl, rfl, rfl⟩

end Sys2Proof.Machine
end

section
/-! PROOFS. O1, O2, O3, O4 (which words are reserved) and O5: the encoding. A command word is its three fields (R60); each
format reads its operands from `ARG` and nothing else (R61); and a row of the map selects a range of `ARG` in one
operation (R73), so that rows and decoder are compared field by field. -/

namespace Sys2Proof

/-! ## The round trip -/

/-- Settles O1: every constructor has its round trip. -/
theorem encodedInstructionDecodesBack : Obligations.EncodedInstructionDecodesBack := by
  intro adcW i
  cases i with
  | cli => exact Laws.RoundTrip.cli adcW
  | sei => exact Laws.RoundTrip.sei adcW
  | qdecUpdate e a b => exact Laws.RoundTrip.qdecUpdate e a b adcW
  | qdecProcess e => exact Laws.RoundTrip.qdecProcess e adcW
  | abcPoll => exact Laws.RoundTrip.abcPoll adcW
  | abcSample => exact Laws.RoundTrip.abcSample adcW
  | abcClassify v => exact Laws.RoundTrip.abcClassify v adcW
  | abcSettle => exact Laws.RoundTrip.abcSettle adcW
  | abcCalload j v => exact Laws.RoundTrip.abcCalload j v adcW
  | abcWrload v => exact Laws.RoundTrip.abcWrload v adcW
  | pxInit c => exact Laws.RoundTrip.pxInit c adcW
  | pxIsr c => exact Laws.RoundTrip.pxIsr c adcW
  | pxTake => exact Laws.RoundTrip.pxTake adcW
  | menuPress0 => exact Laws.RoundTrip.menuPress0 adcW
  | menuPress1 => exact Laws.RoundTrip.menuPress1 adcW
  | menuPress2 => exact Laws.RoundTrip.menuPress2 adcW
  | menuPress3 => exact Laws.RoundTrip.menuPress3 adcW
  | menuPress4 => exact Laws.RoundTrip.menuPress4 adcW
  | menuPress5 => exact Laws.RoundTrip.menuPress5 adcW
  | menuPress6 => exact Laws.RoundTrip.menuPress6 adcW
  | menuPress7 => exact Laws.RoundTrip.menuPress7 adcW
  | menuPress8 => exact Laws.RoundTrip.menuPress8 adcW
  | menuPress9 => exact Laws.RoundTrip.menuPress9 adcW
  | menuPress10 => exact Laws.RoundTrip.menuPress10 adcW
  | menuPress11 => exact Laws.RoundTrip.menuPress11 adcW
  | menuPress12 => exact Laws.RoundTrip.menuPress12 adcW
  | menuPress13 => exact Laws.RoundTrip.menuPress13 adcW
  | menuPress14 => exact Laws.RoundTrip.menuPress14 adcW
  | menuPress15 => exact Laws.RoundTrip.menuPress15 adcW
  | menuPress16 => exact Laws.RoundTrip.menuPress16 adcW
  | menuPress17 => exact Laws.RoundTrip.menuPress17 adcW
  | menuFlowkey k => exact Laws.RoundTrip.menuFlowkey k adcW

/-- Settles O5: the eleven words are encodings, read back by O1. -/
theorem familyWordsDecode : Obligations.FamilyWordsDecode :=
  have back := encodedInstructionDecodesBack 10
  ⟨back .cli rfl, back .sei rfl, back (.qdecUpdate 2 true true) rfl, back (.qdecUpdate 1 false true) rfl,
    back (.qdecProcess 3) rfl, back (.abcCalload 5 450) rfl, back .abcPoll rfl, back (.pxInit 1) rfl, back .pxTake rfl,
    back .menuPress17 rfl, back (.menuFlowkey 17) rfl⟩

/-! ## What the decoder answers -/

/-- A word is the word of its three fields (R60). -/
theorem eq_wordOf {w : Word} {u o a : Nat} (hu : unitField w = u) (ho : opField w = o) (ha : argField w = a) :
    w = wordOf u o a := by
  have hw := w.isLt
  apply BitVec.eq_of_toNat_eq
  simp only [unitField, opField, argField] at hu ho ha
  simp only [wordOf, BitVec.toNat_ofNat]
  omega

/-- The data operand of an instruction that takes one (modifier `D`, R61). -/
def Instr.dataOperand : Instr → Option Word
  | .abcClassify v => some v
  | .abcCalload _ v => some v
  | .abcWrload v => some v
  | _ => none

theorem wellFormed_iff (adcW : Nat) (i : Instr) :
    WellFormed adcW i = true ↔ ∀ v, i.dataOperand = some v → DinFits adcW v := by
  cases i <;> simp [WellFormed, Instr.dataOperand]

/-- The words `w`, `d` are words of `i`: its command word and, where it takes one, its data operand, which fits. -/
def Instr.HasWords (adcW : Nat) (w d : Word) (i : Instr) : Prop :=
  (encode i).1 = w ∧ ∀ v, i.dataOperand = some v → v = d ∧ DinFits adcW v

theorem hasWords_of_noData {adcW : Nat} {w d : Word} {i : Instr} (hd : i.dataOperand = none) (hw : w = (encode i).1) :
    i.HasWords adcW w d :=
  ⟨hw.symm, by simp [hd]⟩

theorem hasWords_of_data {adcW : Nat} {w d : Word} {i : Instr} (hd : i.dataOperand = some d) (hf : DinFits adcW d)
    (hw : w = (encode i).1) : i.HasWords adcW w d :=
  ⟨hw.symm, fun v hv => by cases hd.symm.trans hv; exact ⟨rfl, hf⟩⟩

/-! Each format, when it answers an instruction (R61) -/

theorem formatN_eq_ok {w : Word} {i j : Instr} (h : formatN w i = .ok j) : argField w = 0 ∧ j = i := by
  unfold formatN at h
  split at h <;> cases h
  exact ⟨‹_›, rfl⟩

theorem formatD_eq_ok {adcW : Nat} {d : Word} {i j : Instr} (h : formatD adcW d i = .ok j) : DinFits adcW d ∧ j = i := by
  unfold formatD at h
  split at h <;> cases h
  exact ⟨‹_›, rfl⟩

theorem formatND_eq_ok {adcW : Nat} {w d : Word} {i j : Instr} (h : (formatN w i).bind (formatD adcW d) = .ok j) :
    argField w = 0 ∧ DinFits adcW d ∧ j = i := by
  unfold formatN at h
  split at h
  · exact ⟨‹_›, formatD_eq_ok h⟩
  · cases h

theorem formatE_eq_ok {w : Word} {mk : EncId → Instr} {j : Instr} (h : formatE w mk = .ok j) :
    ∃ e : EncId, argField w = e.val ∧ j = mk e := by
  unfold formatE at h
  split at h <;> cases h
  exact ⟨_, (Nat.mod_eq_of_lt ‹_›).symm, rfl⟩

theorem formatC_eq_ok {w : Word} {mk : Chip → Instr} {j : Instr} (h : formatC w mk = .ok j) :
    ∃ c : Chip, argField w = c.val ∧ j = mk c := by
  unfold formatC at h
  split at h <;> cases h
  exact ⟨_, (Nat.mod_eq_of_lt ‹_›).symm, rfl⟩

theorem formatU_eq_ok {w : Word} {mk : EncId → Bool → Bool → Instr} {j : Instr} (h : formatU w mk = .ok j) :
    ∃ e a b, argField w = e.val * 4 + Bool.toNat b * 2 + Bool.toNat a ∧ j = mk e a b := by
  unfold formatU at h
  split at h <;> cases h
  rename_i hlt
  refine ⟨_, _, _, ?_, rfl⟩
  simp only [argField] at hlt ⊢
  simp only [BitVec.getLsbD, Nat.toNat_testBit, Fin.val_ofNat, Config.nEnc]
  omega

theorem formatI_eq_ok {adcW : Nat} {w d : Word} {mk : BitVec 5 → Word → Instr} {j : Instr}
    (h : formatI adcW w d mk = .ok j) : ∃ i : BitVec 5, argField w = i.toNat ∧ DinFits adcW d ∧ j = mk i d := by
  unfold formatI at h
  split at h
  · exact ⟨_, (Nat.mod_eq_of_lt ‹_›).symm, formatD_eq_ok h⟩
  · cases h

/-- `menu.press k` has the word `0x4000 | k` and no data operand (R73). -/
theorem encode_pressOf {k : Nat} {i : Instr} (h : pressOf k = some i) :
    (encode i).1 = wordOf 4 0 k ∧ i.dataOperand = none := by
  unfold pressOf at h
  split at h <;> cases h <;> exact ⟨rfl, rfl⟩

theorem formatPress_eq_ok {w : Word} {i : Instr} (h : formatPress w = .ok i) : pressOf (argField w) = some i := by
  unfold formatPress at h
  split at h <;> cases h
  assumption

/-- An instruction that the decoder answers has the words it was decoded from: the operands that its format reads from `ARG`
are the ones that the encoder writes there. -/
theorem decode_hasWords {adcW : Nat} {w d : Word} {i : Instr} (h : decode adcW w d = .ok i) : i.HasWords adcW w d := by
  unfold decode at h
  split at h <;> rename_i hu ho
  -- format `N`
  case h_1 | h_2 | h_7 | h_8 | h_10 | h_16 =>
    obtain ⟨ha, rfl⟩ := formatN_eq_ok h
    exact hasWords_of_noData rfl (eq_wordOf hu ho ha)
  -- `N` with `D`
  case h_9 | h_12 =>
    obtain ⟨ha, hf, rfl⟩ := formatND_eq_ok h
    exact hasWords_of_data rfl hf (eq_wordOf hu ho ha)
  -- format `U`
  case h_4 =>
    obtain ⟨e, a, b, ha, rfl⟩ := formatU_eq_ok h
    exact hasWords_of_noData rfl (eq_wordOf hu ho ha)
  -- format `E`
  case h_5 =>
    obtain ⟨e, ha, rfl⟩ := formatE_eq_ok h
    exact hasWords_of_noData rfl (eq_wordOf hu ho ha)
  -- `I` with `D`
  case h_11 =>
    obtain ⟨j, ha, hf, rfl⟩ := formatI_eq_ok h
    exact hasWords_of_data rfl hf (eq_wordOf hu ho ha)
  -- format `C`
  case h_14 | h_15 =>
    obtain ⟨c, ha, rfl⟩ := formatC_eq_ok h
    exact hasWords_of_noData rfl (eq_wordOf hu ho ha)
  -- format `K`
  case h_18 =>
    obtain ⟨hw, hd⟩ := encode_pressOf (formatPress_eq_ok h)
    exact hasWords_of_noData hd (hw ▸ eq_wordOf hu ho rfl)
  case h_19 =>
    cases h
    exact hasWords_of_noData rfl (eq_wordOf hu ho (Nat.mod_eq_of_lt (Nat.mod_lt _ (by decide))).symm)
  -- an `OP` or a `UNIT` without a row
  all_goals cases h

/-- Settles O2: the words are `decode_hasWords`; a data operand that fits is what well-formedness asks. -/
theorem decodedInstructionHasItsWord : Obligations.DecodedInstructionHasItsWord := by
  intro adcW w d i h
  obtain ⟨hw, hdata⟩ := decode_hasWords h
  refine ⟨hw, (wellFormed_iff adcW i).2 fun v hv => (hdata v hv).2, ?_⟩
  split
  · exact (hdata _ rfl).1
  · exact (hdata _ rfl).1
  · exact (hdata _ rfl).1
  · trivial

/-! ## The rows of the map -/

/-- The last word that a row of the map selects: the mask leaves out the lower bits only. -/
def Row.last (r : Row) : Nat := r.1.toNat + (65535 - r.2.toNat)

theorem opcodeRows_mask : ∀ r ∈ opcodeRows, ∃ k ≤ 8, r.2 = BitVec.allOnes 16 <<< k ∧ r.1.toNat % 2 ^ k = 0 := by
  intro r hr
  fin_cases hr <;> decide

/-- A row of the map selects a range of words. -/
theorem selects_iff {r : Row} (hr : r ∈ opcodeRows) (w : Word) :
    r.selects w = true ↔ r.1.toNat ≤ w.toNat ∧ w.toNat ≤ r.last := by
  obtain ⟨k, hk, hmask, halign⟩ := opcodeRows_mask r hr
  have hw := w.isLt
  have hsel : r.selects w = true ↔ (w >>> k <<< k).toNat = r.1.toNat := by
    rw [BitVec.shiftLeft_ushiftRight, ← hmask, BitVec.toNat_inj]
    simp [Row.selects]
  rw [hsel, Row.last, hmask]
  simp only [BitVec.toNat_shiftLeft, BitVec.toNat_ushiftRight, BitVec.toNat_allOnes, Nat.shiftRight_eq_div_pow,
    Nat.shiftLeft_eq]
  interval_cases k <;> omega

/-- The words of `r` end before those of `r'` begin. -/
abbrev Row.Before (r r' : Row) : Prop := r.last < r'.1.toNat

/-- The map lists its rows in ascending order. -/
theorem opcodeRows_ascending : opcodeRows.IsChain Row.Before := by decide

/-- Of two different rows of the map one ends before the other begins. -/
theorem opcodeRows_apart {r r' : Row} (hr : r ∈ opcodeRows) (hr' : r' ∈ opcodeRows) (hne : r ≠ r') :
    r.Before r' ∨ r'.Before r := by
  have htrans : IsTrans Row Row.Before := ⟨fun _ r _ h h' => h.trans (lt_of_le_of_lt (Nat.le_add_right _ _) h')⟩
  have hpair : opcodeRows.Pairwise fun r r' => r.Before r' ∨ r'.Before r := opcodeRows_ascending.pairwise.imp .inl
  have hsymm : Std.Symm fun r r' : Row => r.Before r' ∨ r'.Before r := ⟨fun _ _ => Or.symm⟩
  exact hpair.forall hr hr' hne

/-- Settles O3: the ranges of two rows are apart. -/
theorem opcodeRowsAreDisjoint : Obligations.OpcodeRowsAreDisjoint := by
  intro r hr r' hr' w h h'
  obtain ⟨hfirst, hlast⟩ := (selects_iff hr w).1 h
  obtain ⟨hfirst', hlast'⟩ := (selects_iff hr' w).1 h'
  by_contra hne
  have := opcodeRows_apart hr hr' hne
  unfold Row.Before at this
  omega

/-- How many values of `ARG`, from 0 up, the rows of an operation select (R73). -/
def argCount : Nat → Nat → Nat
  | 0, 1 | 0, 2 => 1
  | 1, 0 => 16
  | 1, 1 => 4
  | 2, 0 | 2, 1 | 2, 2 | 2, 3 | 2, 5 => 1
  | 2, 4 => 32
  | 3, 0 | 3, 1 => 2
  | 3, 2 => 1
  | 4, 0 => 18
  | 4, 1 => 256
  | _, _ => 0

theorem argCount_bounds {u o a : Nat} (h : a < argCount u o) : u < 5 ∧ o < 6 ∧ argCount u o ≤ 256 := by
  unfold argCount at *
  split at h <;> omega

theorem arg_lt_of_mem_opcodeRows :
    ∀ r ∈ opcodeRows, argField r.1 + (r.last - r.1.toNat) < argCount (unitField r.1) (opField r.1) := by
  intro r hr
  fin_cases hr <;> decide

theorem wordOf_mem_opcodeRows : ∀ (u : Fin 5) (o : Fin 6), argCount u o ≠ 0 → ¬(u.val = 4 ∧ o.val = 0) →
    (wordOf u o 0, BitVec.ofNat 16 (65536 - argCount u o)) ∈ opcodeRows := by
  decide

theorem pressWord_mem_opcodeRows : ∀ a < 18, (wordOf 4 0 a, 0xFFFF#16) ∈ opcodeRows := by
  decide

theorem toNat_eq_fields (w : Word) : w.toNat = unitField w * 4096 + opField w * 256 + argField w := by
  simp only [unitField, opField, argField]
  have := w.isLt
  omega

/-- R73: a word selects a row exactly when its `ARG` is one of those of its operation. -/
theorem exists_row_iff (w : Word) :
    (∃ r ∈ opcodeRows, r.selects w = true) ↔ argField w < argCount (unitField w) (opField w) := by
  constructor
  · rintro ⟨r, hr, hsel⟩
    have hlt := arg_lt_of_mem_opcodeRows r hr
    obtain ⟨hfirst, hlast⟩ := (selects_iff hr w).1 hsel
    obtain ⟨-, -, h256⟩ := argCount_bounds hlt
    have hu : unitField w = unitField r.1 := by simp only [unitField, argField] at *; omega
    have ho : opField w = opField r.1 := by simp only [opField, argField] at *; omega
    rw [hu, ho]
    simp only [argField] at *
    omega
  · intro hlt
    obtain ⟨hu, ho, h256⟩ := argCount_bounds hlt
    have hw := toNat_eq_fields w
    have ha : argField w < 256 := Nat.mod_lt _ (by decide)
    by_cases hpress : unitField w = 4 ∧ opField w = 0
    · obtain ⟨hu4, ho0⟩ := hpress
      rw [hu4, ho0] at hlt hw
      have hr := pressWord_mem_opcodeRows (argField w) hlt
      refine ⟨_, hr, (selects_iff hr w).2 ?_⟩
      simp only [Row.last, Laws.toNat_wordOf (by decide : 4 < 16) (by decide : 0 < 16) ha]
      omega
    · have hr := wordOf_mem_opcodeRows ⟨_, hu⟩ ⟨_, ho⟩ (by simp only; omega) hpress
      refine ⟨_, hr, (selects_iff hr w).2 ?_⟩
      simp only [Row.last, BitVec.toNat_ofNat, Laws.toNat_wordOf (by omega : unitField w < 16)
        (by omega : opField w < 16) (by omega : 0 < 256)]
      omega

/-! ## Reserved words -/

/-- The decoder's answer makes the word a reserved one on the command port (R74, R75). -/
def ReservedAnswer (x : Except Reject Instr) : Prop :=
  (∃ c, x = .ok (.pxIsr c)) ∨ ∃ e, x = .error e ∧ ∀ k, e ≠ .pressUnlisted k

theorem commandRequest_eq_reserved {adcW : Nat} {w d : Word} :
    commandRequest adcW w d = .reserved ↔ ReservedAnswer (decode adcW w d) := by
  unfold commandRequest
  split <;> simp_all [ReservedAnswer]

theorem commandRequest_of_ok {adcW : Nat} {w d : Word} {i : Instr} (h : decode adcW w d = .ok i)
    (hi : ∀ c, i ≠ .pxIsr c) : commandRequest adcW w d = .op i := by
  unfold commandRequest
  split <;> rename_i heq <;> cases h.symm.trans heq
  · exact absurd rfl (hi _)
  · rfl

theorem reservedAnswer_ok (i : Instr) : ReservedAnswer (.ok i) ↔ ∃ c, i = .pxIsr c := by simp [ReservedAnswer]

theorem reservedAnswer_error (e : Reject) : ReservedAnswer (.error e) ↔ ∀ k, e ≠ .pressUnlisted k := by
  simp [ReservedAnswer]

/-- A check of a format that refuses the word by reserving it. -/
theorem reservedAnswer_check {p : Prop} [Decidable p] {x : Except Reject Instr} {e : Reject}
    (he : ∀ k, e ≠ .pressUnlisted k) : ReservedAnswer (if p then x else .error e) ↔ (p → ReservedAnswer x) := by
  split <;> simp_all [reservedAnswer_error]

/-! When each format reserves the word (R61, R75) -/

theorem reserved_formatN {w : Word} {i : Instr} (hi : ∀ c, i ≠ .pxIsr c) :
    ReservedAnswer (formatN w i) ↔ argField w ≠ 0 := by
  simp [formatN, reservedAnswer_check, reservedAnswer_ok, hi]

theorem reserved_formatD {adcW : Nat} {d : Word} {i : Instr} (hi : ∀ c, i ≠ .pxIsr c) :
    ReservedAnswer (formatD adcW d i) ↔ ¬DinFits adcW d := by
  simp [formatD, reservedAnswer_check, reservedAnswer_ok, hi]

theorem reserved_formatND {adcW : Nat} {w d : Word} {i : Instr} (hi : ∀ c, i ≠ .pxIsr c) :
    ReservedAnswer ((formatN w i).bind (formatD adcW d)) ↔ argField w ≠ 0 ∨ ¬DinFits adcW d := by
  unfold formatN
  split <;> simp_all [Except.bind, reservedAnswer_error, reserved_formatD]

theorem reserved_formatI {adcW : Nat} {w d : Word} {mk : BitVec 5 → Word → Instr} (hmk : ∀ j v c, mk j v ≠ .pxIsr c) :
    ReservedAnswer (formatI adcW w d mk) ↔ 32 ≤ argField w ∨ ¬DinFits adcW d := by
  simp [formatI, reservedAnswer_check, reserved_formatD, hmk, imp_iff_not_or]

theorem reserved_formatU {w : Word} {mk : EncId → Bool → Bool → Instr} (hmk : ∀ e a b c, mk e a b ≠ .pxIsr c) :
    ReservedAnswer (formatU w mk) ↔ 16 ≤ argField w := by
  simp [formatU, reservedAnswer_check, reservedAnswer_ok, hmk]

theorem reserved_formatE {w : Word} {mk : EncId → Instr} (hmk : ∀ e c, mk e ≠ .pxIsr c) :
    ReservedAnswer (formatE w mk) ↔ 4 ≤ argField w := by
  simp [formatE, reservedAnswer_check, reservedAnswer_ok, hmk]

theorem reserved_formatC {w : Word} {mk : Chip → Instr} (hmk : ∀ c c', mk c ≠ .pxIsr c') :
    ReservedAnswer (formatC w mk) ↔ 2 ≤ argField w := by
  simp [formatC, reservedAnswer_check, reservedAnswer_ok, hmk, Nat.succ_le_iff]

/-- The words of `px.isr` are reserved with every chip, and with a nonzero upper `ARG` as well (R74). -/
theorem reserved_formatC_pxIsr (w : Word) : ReservedAnswer (formatC w .pxIsr) := by
  simp [formatC, reservedAnswer_check, reservedAnswer_ok]

theorem pressOf_ne_pxIsr {k : Nat} {c : Chip} : pressOf k ≠ some (.pxIsr c) := by
  unfold pressOf
  split <;> nofun

theorem not_reserved_formatPress (w : Word) : ¬ReservedAnswer (formatPress w) := by
  unfold formatPress
  split
  · intro h
    obtain ⟨c, rfl⟩ := (reservedAnswer_ok _).1 h
    exact pressOf_ne_pxIsr ‹_›
  · simp [reservedAnswer_error]

/-- The word asks for a data operand (modifier `D`, R61): `abc.classify`, `abc.calload` or `abc.wrload`. -/
def TakesData (w : Word) : Prop :=
  unitField w = 2 ∧
    (opField w = 2 ∧ argField w = 0 ∨ opField w = 4 ∧ argField w < 32 ∨ opField w = 5 ∧ argField w = 0)

/-- Which answers reserve the word, by its fields: no row outside `menu.press`, `px.isr`, a data operand that is too wide. -/
theorem reserved_decode_iff (adcW : Nat) (w d : Word) : ReservedAnswer (decode adcW w d) ↔
    (argCount (unitField w) (opField w) ≤ argField w ∧ ¬(unitField w = 4 ∧ opField w = 0)) ∨
    (unitField w = 3 ∧ opField w = 1 ∧ argField w < 2) ∨
    (TakesData w ∧ ¬DinFits adcW d) := by
  unfold decode TakesData
  split <;> rename_i hu ho
  -- format `N`
  case h_1 | h_2 | h_7 | h_8 | h_10 | h_16 =>
    rw [reserved_formatN (by nofun)]
    simp only [hu, ho, argCount, DinFits]
    omega
  -- `N` with `D`
  case h_9 | h_12 =>
    rw [reserved_formatND (by nofun)]
    simp only [hu, ho, argCount, DinFits, true_and]
    omega
  -- format `U`
  case h_4 =>
    rw [reserved_formatU (by nofun)]
    simp only [hu, ho, argCount, DinFits]
    omega
  -- format `E`
  case h_5 =>
    rw [reserved_formatE (by nofun)]
    simp only [hu, ho, argCount, DinFits]
    omega
  -- `I` with `D`
  case h_11 =>
    rw [reserved_formatI (by nofun)]
    simp only [hu, ho, argCount, DinFits, true_and]
    omega
  -- format `C`
  case h_14 =>
    rw [reserved_formatC (by nofun)]
    simp only [hu, ho, argCount, DinFits]
    omega
  case h_15 =>
    refine iff_of_true (reserved_formatC_pxIsr w) ?_
    obtain ha | ha := lt_or_ge (argField w) 2
    · exact .inr (.inl ⟨hu, ho, ha⟩)
    · exact .inl ⟨by rwa [hu, ho], by omega⟩
  -- format `K`
  case h_18 =>
    refine iff_of_false (not_reserved_formatPress w) ?_
    rintro (⟨-, h⟩ | ⟨h, -⟩ | ⟨⟨h, -⟩, -⟩) <;> omega
  case h_19 =>
    have ha : argField w < 256 := Nat.mod_lt _ (by decide)
    refine iff_of_false (by simp [reservedAnswer_ok]) ?_
    rintro (⟨h, -⟩ | ⟨h, -⟩ | ⟨⟨h, -⟩, -⟩)
    · simp only [hu, ho, argCount] at h
      omega
    · omega
    · omega
  -- an `OP` or a `UNIT` without a row
  all_goals simp_all [reservedAnswer_error, argCount]

/-! The same by the words (R73) -/

theorem noRow_iff (w : Word) :
    (∀ r ∈ opcodeRows, r.selects w = false) ↔ argCount (unitField w) (opField w) ≤ argField w := by
  rw [← not_lt, ← exists_row_iff]
  simp

theorem isrWord_iff (w : Word) :
    (w = 0x3100#16 ∨ w = 0x3101#16) ↔ unitField w = 3 ∧ opField w = 1 ∧ argField w < 2 := by
  simp only [← BitVec.toNat_inj, BitVec.toNat_ofNat, unitField, opField, argField]
  omega

theorem calloadWord_iff (w : Word) : w &&& 0xFFE0#16 = 0x2400#16 ↔ 0x2400 ≤ w.toNat ∧ w.toNat ≤ 0x241F := by
  have h := selects_iff (r := (0x2400#16, 0xFFE0#16)) (by decide) w
  simpa [Row.selects, Row.last] using h

theorem takesData_iff (w : Word) :
    (w = 0x2200#16 ∨ w = 0x2500#16 ∨ w &&& 0xFFE0#16 = 0x2400#16) ↔ TakesData w := by
  rw [calloadWord_iff]
  simp only [TakesData, ← BitVec.toNat_inj, BitVec.toNat_ofNat, unitField, opField, argField]
  omega

/-- R75: a `menu.press` word without a row is no reserved word. -/
theorem noRow_noPress_iff (w : Word) :
    (∀ r ∈ opcodeRows, r.selects w = false) ∧ ¬(0x4012 ≤ w.toNat ∧ w.toNat ≤ 0x40FF) ↔
      argCount (unitField w) (opField w) ≤ argField w ∧ ¬(unitField w = 4 ∧ opField w = 0) := by
  rw [noRow_iff]
  refine and_congr_right fun hno => not_congr ⟨fun h => ?_, fun ⟨hu, ho⟩ => ?_⟩
  · simp only [unitField, opField]
    omega
  · have hw := toNat_eq_fields w
    have ha : argField w < 256 := Nat.mod_lt _ (by decide)
    simp only [hu, ho, argCount] at hno hw
    omega

/-- R75, R72, R74: the reserved words of the command port. -/
theorem commandRequest_reserved_iff (adcW : Nat) (w d : Word) : commandRequest adcW w d = .reserved ↔
    ((∀ r ∈ opcodeRows, r.selects w = false) ∧ ¬(0x4012 ≤ w.toNat ∧ w.toNat ≤ 0x40FF)) ∨
    (w = 0x3100#16 ∨ w = 0x3101#16) ∨
    ((w = 0x2200#16 ∨ w = 0x2500#16 ∨ w &&& 0xFFE0#16 = 0x2400#16) ∧ ¬d.toNat < 2 ^ adcW) := by
  rw [commandRequest_eq_reserved, reserved_decode_iff, noRow_noPress_iff, isrWord_iff, takesData_iff]

end Sys2Proof
end

section
/-! PROOFS. O4, O6 and O18: what the foreground does with a command it accepts (R62, R75, R81) and with an operation of the
sequencer (R231). -/

namespace Sys2Proof.Machine

/-- R62: the step that accepts a command takes up its request. -/
theorem step_of_accepting {s : State} {w d : Word} (h : s.Accepting w d) :
    step s = s.accepted.issue (commandRequest s.params.adcW w d) := by
  obtain ⟨hn, hmay, hbusy, hhost, hcmd⟩ := h
  obtain ⟨rest, hcmds⟩ : ∃ rest, s.env.cmds = (w, d) :: rest := List.head?_eq_some_iff.1 hcmd
  rw [step_of_fg hn]
  have hmay' : s.popTurn.fgMayStep = true := hmay
  have hbusy' : s.popTurn.busy = false := hbusy
  simp only [State.foregroundStep, hmay', hbusy', State.popTurn_straps, hhost, State.popTurn_env, hcmds, if_true,
    Bool.false_eq_true, if_false]
  rfl

theorem accepted_seqEn {s : State} {w d : Word} (h : s.Accepting w d) : s.accepted.straps.seqEn = .host := by
  obtain ⟨-, -, -, hhost, -⟩ := h
  exact hhost

/-- R231: the step that begins an operation of the sequencer takes up its request. -/
theorem step_of_sequencer {s : State} {q : Request} (hn : s.nextTurn = .fg) (hmay : s.fgMayStep = true)
    (hbusy : s.busy = false) (hseq : s.straps.seqEn = .sequencer) (hq : s.sequencerRequest = some q) :
    step s = s.popTurn.issue q := by
  have hmay' : s.popTurn.fgMayStep = true := hmay
  have hbusy' : s.popTurn.busy = false := hbusy
  have hq' : s.popTurn.sequencerRequest = some q := hq
  rw [step_of_fg hn]
  simp only [State.foregroundStep, hmay', hbusy', State.popTurn_straps, hseq, hq', if_true, Bool.false_eq_true, if_false]

/-- With the host driving, an operation is started by its word on the trace port and is then its meaning (R81). -/
theorem startOperation_of_host {s : State} (h : s.straps.seqEn = .host) (i : Instr) :
    s.startOperation i = exec i (s.pushTrace (encode i).1) := by
  unfold State.startOperation
  split
  · rename_i t ht
    have hstraps : t.straps = s.straps := (config_eq_iff.1 (exec_config ht)).2
    rw [ht, afterOperation_of_host (hstraps ▸ h)]
  · exact Eq.symm ‹_›
  · exact Eq.symm ‹_›

/-- Settles O4: which words, by their rows; and a reserved word's step is the accepted state with `F_CMD`. -/
theorem reservedWordSetsOnlyCommandFault : Obligations.ReservedWordSetsOnlyCommandFault := by
  refine ⟨commandRequest_reserved_iff, fun s w d hacc hres => ⟨s.out.trace, ?_⟩⟩
  rw [step_of_accepting hacc, hres]
  rfl

/-- Settles O6: the step takes up the request; the host adds nothing to its operation, the sequencer the work of its phase. -/
theorem stepRunsTheAcceptedInstruction : Obligations.StepRunsTheAcceptedInstruction := by
  refine ⟨fun s w d i hacc hdec hisr => ?_, fun s u i hn hmay hbusy hseq hq hexec => ?_⟩
  · obtain ⟨hw, -⟩ := decode_hasWords hdec
    rw [step_of_accepting hacc, commandRequest_of_ok hdec hisr, State.issue, startOperation_of_host (accepted_seqEn hacc), hw]
  · rw [step_of_sequencer hn hmay hbusy hseq hq]
    simp only [State.issue, State.startOperation, hexec]

/-- Settles O18: the check of the data operand comes first in each of the three operations. -/
theorem wideDataOperandIsReserved : Obligations.WideDataOperandIsReserved := by
  rintro v s i hwide hi
  have hfit : ¬DinFits s.params.adcW v := not_lt.2 hwide
  obtain rfl | rfl | ⟨j, rfl⟩ := hi
  · exact if_neg hfit
  · exact if_neg hfit
  · exact if_neg hfit

end Sys2Proof.Machine
end

section
/-! PROOFS. O23: the registers whose width is a parameter hold values of that width (R10, R96, R111). What a value of each
such register is stands first, with one rule per write of one of them; every operation is then put together from these
rules and from frame lemmas for the operations that write none of them. -/

namespace Sys2Proof.Machine

theorem enc_set_self (v : Vector EncState Config.nEnc) (e : EncId) (x : EncState) : (v.set e x)[e] = x := by simp

theorem enc_set_ne (v : Vector EncState Config.nEnc) {e d : EncId} (h : d ≠ e) (x : EncState) : (v.set e x)[d] = v[d] := by
  simp [Fin.val_ne_of_ne h.symm]

theorem cell_set_self (v : Vector Sample Config.maxSw) (i : Button) (x : Sample) : (v.set i x)[i] = x := by simp

theorem cell_set_ne (v : Vector Sample Config.maxSw) {i j : Button} (h : j ≠ i) (x : Sample) : (v.set i x)[j] = v[j] := by
  simp [Fin.val_ne_of_ne h.symm]

/-! What fits, register by register -/

/-- A value of an accumulator of `accW` bits (R96). -/
def AccFits (accW : Nat) (v : Int) : Prop := -accMax accW ≤ v ∧ v ≤ accMax accW

/-- A value of `fgTmp`, signed `accW` bits (R10). -/
def TmpFits (accW : Nat) (v : Int) : Prop := -2 ^ (accW - 1) ≤ v ∧ v < 2 ^ (accW - 1)

/-- The classifier's registers of `adcW` bits hold such values (R10). -/
structure AbcRegs.Fits (adcW : Nat) (a : AbcRegs) : Prop where
  smoothed : SampleFits adcW a.smoothed
  smoothedPrev : SampleFits adcW a.smoothedPrev
  cal : ∀ i : Button, SampleFits adcW a.cal[i]
  wiggleRoom : SampleFits adcW a.wiggleRoom

/-- The inputs of `adcW` bits hold such values (R62). -/
structure EnvInputs.Fits (adcW : Nat) (v : EnvInputs) : Prop where
  adc : ∀ x ∈ v.adc, SampleFits adcW x
  calStore : ∀ i : Button, SampleFits adcW v.calStore[i]
  wiggleStore : SampleFits adcW v.wiggleStore

/-- Every entry of a table fits after a write of a fitting value. -/
theorem cells_fit_set {w : Nat} {v : Vector Sample Config.maxSw} (h : ∀ i : Button, SampleFits w v[i]) (j : Button)
    {x : Sample} (hx : SampleFits w x) (i : Button) : SampleFits w (v.set j x)[i] := by
  by_cases hi : i = j
  · rw [hi, cell_set_self]; exact hx
  · rw [cell_set_ne v hi]; exact h i

theorem AbcRegs.Fits.inState {w : Nat} {a : AbcRegs} (h : a.Fits w) (st : AbcState) :
    AbcRegs.Fits w { a with abcState := st } :=
  ⟨h.smoothed, h.smoothedPrev, h.cal, h.wiggleRoom⟩

theorem filter_fits {w : Nat} {a : AbcRegs} (h : a.Fits w) {raw : Sample} (hraw : SampleFits w raw) :
    (a.filter raw).Fits w :=
  ⟨smoothStep_fits hraw h.smoothed, h.smoothed, h.cal, h.wiggleRoom⟩

theorem loadCal_fits {w : Nat} {a : AbcRegs} (h : a.Fits w) (i : Button) {v : Sample} (hv : SampleFits w v) :
    (a.loadCal i v).Fits w :=
  ⟨h.smoothed, h.smoothedPrev, cells_fit_set h.cal i hv, h.wiggleRoom⟩

theorem accFits_zero (w : Nat) : AccFits w 0 := ⟨neg_nonpos.2 (accMax_nonneg w), accMax_nonneg w⟩

/-- R96: an update keeps the accumulator in the symmetric range. -/
theorem update_accFits {w : Nat} {x : EncState} (h : AccFits w x.acc) (t : QTable) (a b : Bool) :
    AccFits w (x.update t w a b).acc := by
  obtain hx | ⟨v, hx⟩ := update_acc t w x a b <;> rw [hx]
  · exact h
  · exact satAcc_mem w v

/-- `fgTmp` has room for an accumulator (R95). -/
theorem tmpFits_of_accFits {w : Nat} {v : Int} (h : AccFits w v) : TmpFits w v := by
  unfold AccFits accMax at h
  unfold TmpFits
  omega

/-- `fgTmp` has room for an index, as it has 8 bits or more (R153). -/
theorem tmpFits_tmpOfIdx {w : Nat} (hw : 8 ≤ w) (v : Idx) : TmpFits w (tmpOfIdx v) := by
  have hpow : (2 : Int) ^ 7 ≤ 2 ^ (w - 1) := pow_le_pow_right₀ (by decide) (by omega)
  have hlo := BitVec.le_toInt v
  have hhi := BitVec.toInt_lt (x := v)
  unfold TmpFits tmpOfIdx
  omega

/-! One rule per write -/

section
variable {s t : State}

theorem State.RegistersFit.abcFits (h : s.RegistersFit) : s.abc.Fits s.params.adcW :=
  ⟨h.smoothed, h.smoothedPrev, h.cal, h.wiggleRoom⟩

theorem State.RegistersFit.envFits (h : s.RegistersFit) : s.env.Fits s.params.adcW :=
  ⟨h.adc, h.calStore, h.wiggleStore⟩

theorem State.RegistersFit.accFits (h : s.RegistersFit) (e : EncId) : AccFits s.params.accW s.enc[e].acc := h.acc e

/-- The registers that `State.RegistersFit` speaks of. -/
def State.sized (s : State) :
    Params × Vector EncState Config.nEnc × Int × AbcRegs × List Sample × Vector Sample Config.maxSw × Sample :=
  (s.params, s.enc, s.sys.fgTmp, s.abc, s.env.adc, s.env.calStore, s.env.wiggleStore)

/-- A state with these registers as they were fits as it did. -/
theorem State.RegistersFit.of_sized (h : s.RegistersFit) (heq : t.sized = s.sized) : t.RegistersFit := by
  simp only [State.sized, Prod.mk.injEq] at heq
  obtain ⟨hp, henc, htmp, habc, hadc, hcal, hwig⟩ := heq
  cases h
  constructor <;> simpa only [State.AccSymmetric, hp, henc, htmp, habc, hadc, hcal, hwig]

theorem State.RegistersFit.setAbc (h : s.RegistersFit) {a : AbcRegs} (ha : a.Fits s.params.adcW) :
    (s.setAbc a).RegistersFit :=
  { h with smoothed := ha.smoothed, smoothedPrev := ha.smoothedPrev, cal := ha.cal, wiggleRoom := ha.wiggleRoom }

theorem State.RegistersFit.setEnv (h : s.RegistersFit) {v : EnvInputs} (hv : v.Fits s.params.adcW) :
    (s.setEnv v).RegistersFit :=
  { h with adc := hv.adc, calStore := hv.calStore, wiggleStore := hv.wiggleStore }

theorem State.RegistersFit.setSys (h : s.RegistersFit) {v : SysRegs} (hv : TmpFits s.params.accW v.fgTmp) :
    (s.setSys v).RegistersFit :=
  { h with fgTmp := hv }

theorem State.RegistersFit.setEnc (h : s.RegistersFit) (e : EncId) {x : EncState} (hx : AccFits s.params.accW x.acc) :
    (s.setEnc e x).RegistersFit :=
  { h with
    acc := fun d => by
      rw [State.setEnc_enc]
      by_cases hd : d = e
      · rw [hd, enc_set_self]; exact hx
      · rw [enc_set_ne _ hd]; exact h.acc d }

theorem State.RegistersFit.dropAdc (h : s.RegistersFit) : s.dropAdc.RegistersFit :=
  h.setEnv ⟨fun x hx => h.adc x (List.mem_of_mem_tail hx), h.calStore, h.wiggleStore⟩

theorem State.RegistersFit.updateEnc (h : s.RegistersFit) (e : EncId) (a b : Bool) : (s.updateEnc e a b).RegistersFit :=
  h.setEnc e (update_accFits (h.accFits e) _ a b)

theorem State.RegistersFit.clearAcc (h : s.RegistersFit) (e : EncId) : (s.clearAcc e).RegistersFit :=
  h.setEnc e (accFits_zero _)

end

/-! The classifier -/

theorem classifyRespond_sized (v : Sample) (s : State) : (s.classifyRespond v).sized = s.sized := by
  unfold State.classifyRespond; split <;> rfl

/-- R112: a conversion result taken off the port goes through the filter. -/
theorem State.RegistersFit.filter {s : State} (h : s.RegistersFit) {raw : Sample} {rest : List Sample}
    (hadc : s.env.adc = raw :: rest) (st : AbcState) :
    ((s.dropAdc).setAbc { s.abc.filter raw with abcState := st }).RegistersFit :=
  h.dropAdc.setAbc ((filter_fits h.abcFits (h.adc raw (hadc ▸ List.mem_cons_self))).inState st)

theorem sampleOnce_fits {s : State} (h : s.RegistersFit) : s.sampleOnce.RegistersFit := by
  unfold State.sampleOnce
  split
  · exact h.of_sized rfl
  · exact (h.filter ‹_› _).of_sized rfl

theorem pollPass_fits {s : State} (h : s.RegistersFit) : s.pollPass.RegistersFit := by
  cases hadc : s.env.adc with
  | nil => rw [pollPass_nil hadc]; exact h
  | cons raw rest =>
    by_cases hs : s.params.floatSentinel = some raw
    · rw [pollPass_sentinel hadc hs]
      exact (h.dropAdc.setAbc (h.abcFits.inState .ABC_IDLE)).of_sized rfl
    · rw [pollPass_cons hadc hs]
      split
      · exact (h.filter hadc _).of_sized (classifyRespond_sized _ _)
      · exact h.filter hadc _

/-- R113: the poll begins from the estimate or from `SMOOTH_INIT`. -/
theorem execAbcPoll_fits {s t : State} (h : s.RegistersFit) (hx : execAbcPoll s = .next t) : t.RegistersFit := by
  cases hx
  have hsmooth : SampleFits s.params.adcW (if s.params.abcReinit then s.params.smoothInit else s.abc.smoothed) := by
    split
    · exact h.smoothInit
    · exact h.smoothed
  exact pollPass_fits (h.setAbc ⟨hsmooth, h.smoothedPrev, h.cal, h.wiggleRoom⟩)

theorem execAbcClassify_fits {v : Word} {s t : State} (h : s.RegistersFit) (hx : execAbcClassify v s = .next t) :
    t.RegistersFit := by
  unfold execAbcClassify at hx
  split at hx <;> cases hx
  · exact h.of_sized (classifyRespond_sized v s)
  · exact h.of_sized rfl

/-- R119: the entry is written with a data operand that fits. -/
theorem execAbcCalload_fits {i : BitVec 5} {v : Word} {s t : State} (h : s.RegistersFit)
    (hx : execAbcCalload i v s = .next t) : t.RegistersFit := by
  unfold execAbcCalload at hx
  split at hx
  · split at hx <;> cases hx
    · exact h.setAbc (loadCal_fits h.abcFits _ ‹_›)
    · exact h.of_sized rfl
  · cases hx; exact h.of_sized rfl

/-- R120: so is the tolerance. -/
theorem execAbcWrload_fits {v : Word} {s t : State} (h : s.RegistersFit) (hx : execAbcWrload v s = .next t) :
    t.RegistersFit := by
  unfold execAbcWrload at hx
  split at hx <;> cases hx
  · exact h.setAbc ⟨h.smoothed, h.smoothedPrev, h.cal, ‹_›⟩
  · exact h.of_sized rfl

theorem settle_fits {s : State} (h : s.RegistersFit) (st : AbcState) :
    (s.setAbc { s.abc with abcState := st }).RegistersFit :=
  h.setAbc (h.abcFits.inState st)

/-! The decoder and the port expander -/

theorem execQdecProcess_fits {e : EncId} {s t : State} (h : s.RegistersFit) (hx : execQdecProcess e s = .next t) :
    t.RegistersFit := by
  unfold execQdecProcess at hx
  split at hx <;> cases hx
  · exact (h.setSys (v := { s.sys with fgTmp := s.enc[e].acc }) (tmpFits_of_accFits (h.accFits e))).of_sized rfl
  · exact (h.clearAcc e).of_sized rfl

theorem execPxTake_fits {s t : State} (h : s.RegistersFit) (hx : execPxTake s = .next t) : t.RegistersFit := by
  obtain ⟨-, -, -, hidx, hacc⟩ := h.widths
  have htmp := tmpFits_tmpOfIdx (hidx.trans hacc) s.pendingButton
  unfold execPxTake at hx
  split at hx <;> cases hx
  · exact (h.setSys (v := { s.sys with fgTmp := tmpOfIdx s.pendingButton }) htmp).of_sized rfl
  · exact h.of_sized rfl

theorem execPxInit_sized {c : Chip} {s t : State} (hx : execPxInit c s = .next t) : t.sized = s.sized := by
  unfold execPxInit at hx; split at hx <;> cases hx <;> rfl

/-- A handler writes a register of such a width in `PARTNER` alone, where it feeds the decoder (R151). -/
theorem execPxIsr_fits {c : Chip} {s t : State} (h : s.RegistersFit) (hx : execPxIsr c s = .next t) :
    t.RegistersFit := by
  unfold execPxIsr at hx
  split at hx
  · cases hx
    split
    · exact h.of_sized rfl
    · exact h
  · cases hx
    unfold State.isrFetch
    split <;> exact h.of_sized rfl
  · cases hx
    simp only [State.isrRead]
    split
    · split <;> exact h.of_sized rfl
    all_goals exact h.of_sized rfl
  · simp only [State.isrPartner] at hx
    split at hx <;> cases hx <;> exact (h.updateEnc _ _ _).of_sized rfl

/-! The menu -/

/-- From `s` to `t` nothing but the menu registers, the queue of return values, the fault bits, the output ports and the
progress of the foreground was written (R180 to R206). -/
def State.MenuWrites (s t : State) : Prop :=
  ∃ m r f o p, t = { s with menu := m, env := { s.env with ret := r }, sys := { s.sys with fault := f }, out := o, prog := p }

theorem menuWrites_trans {s t u : State} (h : s.MenuWrites t) (h' : t.MenuWrites u) : s.MenuWrites u := by
  obtain ⟨_, _, _, _, _, rfl⟩ := h
  obtain ⟨_, _, _, _, _, rfl⟩ := h'
  exact ⟨_, _, _, _, _, rfl⟩

theorem promote_menuWrites (s : State) : s.MenuWrites s.promote := by
  unfold State.promote; split <;> exact ⟨_, _, _, _, _, rfl⟩

theorem menuReturn_menuWrites (s : State) : s.MenuWrites s.menuReturn := by
  unfold State.menuReturn; split <;> exact ⟨_, _, _, _, _, rfl⟩

theorem select_menuWrites (s : State) : s.MenuWrites s.select := by
  unfold State.select
  split
  · exact ⟨_, _, _, _, _, rfl⟩
  · exact menuWrites_trans ⟨_, _, _, _, _, rfl⟩ (menuReturn_menuWrites (s.emit (.CALL_MENUFN s.menu.mainMenuIndex)))

theorem navigate_menuWrites (m : Idx) (s : State) : s.MenuWrites (s.navigate m) := by
  simp only [State.navigate]; split <;> exact ⟨_, _, _, _, _, rfl⟩

theorem mapFlow_menuWrites (s : State) : s.MenuWrites s.mapFlow := by
  unfold State.mapFlow; split <;> exact ⟨_, _, _, _, _, rfl⟩

theorem runAction_menuWrites (a : Action) (s : State) : s.MenuWrites (s.runAction a) := by
  cases a
  case SELECT => exact select_menuWrites s
  case MENU_UP => exact navigate_menuWrites _ s
  case MENU_DOWN => exact navigate_menuWrites _ s
  case MAP_FLOW => exact mapFlow_menuWrites s
  all_goals exact ⟨_, _, _, _, _, rfl⟩

theorem menuPress_menuWrites (k : Button) (s : State) : s.MenuWrites (s.menuPress k) := by
  obtain ⟨-, h⟩ | ⟨-, -, -, -, h⟩ | ⟨-, -, -, h⟩ := menuPress_cases k s <;> rw [h]
  · exact ⟨_, _, _, _, _, rfl⟩
  · exact ⟨_, _, _, _, _, rfl⟩
  · exact menuWrites_trans (promote_menuWrites s) (runAction_menuWrites _ _)

theorem pressUnlisted_menuWrites (k : Idx) (s : State) : s.MenuWrites (s.pressUnlisted k) := by
  obtain ⟨hk, h⟩ | ⟨-, h⟩ := pressUnlisted_cases k s <;> rw [h]
  · exact menuPress_menuWrites _ s
  · exact ⟨_, _, _, _, _, rfl⟩

theorem execMenuFlowkey_menuWrites {k : Idx} {s t : State} (h : execMenuFlowkey k s = .next t) : s.MenuWrites t := by
  unfold execMenuFlowkey at h
  split at h
  · split at h <;> cases h <;> exact ⟨_, _, _, _, _, rfl⟩
  · cases h; exact ⟨_, _, _, _, _, rfl⟩

theorem State.RegistersFit.of_menuWrites {s t : State} (h : s.RegistersFit) (hm : s.MenuWrites t) : t.RegistersFit := by
  obtain ⟨_, _, _, _, _, rfl⟩ := hm
  exact h.of_sized rfl

/-! Every operation, and what the sequencer does after it -/

theorem exec_fits {i : Instr} {s t : State} (h : s.RegistersFit) (hx : exec i s = .next t) : t.RegistersFit := by
  cases i with
  | cli | sei => cases hx; exact h.of_sized rfl
  | qdecUpdate => cases hx; exact h.updateEnc _ _ _
  | qdecProcess => exact execQdecProcess_fits h hx
  | abcPoll => exact execAbcPoll_fits h hx
  | abcSample => cases hx; exact sampleOnce_fits h
  | abcClassify => exact execAbcClassify_fits h hx
  | abcSettle => cases hx; exact settle_fits h _
  | abcCalload => exact execAbcCalload_fits h hx
  | abcWrload => exact execAbcWrload_fits h hx
  | pxInit => exact h.of_sized (execPxInit_sized hx)
  | pxIsr => exact execPxIsr_fits h hx
  | pxTake => exact execPxTake_fits h hx
  | menuFlowkey => exact h.of_menuWrites (execMenuFlowkey_menuWrites hx)
  | menuPress0 | menuPress1 | menuPress2 | menuPress3 | menuPress4 | menuPress5 | menuPress6 | menuPress7 | menuPress8
  | menuPress9 | menuPress10 | menuPress11 | menuPress12 | menuPress13 | menuPress14 | menuPress15 | menuPress16
  | menuPress17 => cases hx; exact h.of_menuWrites (menuPress_menuWrites _ s)

theorem continueOperation_fits {s : State} (h : s.RegistersFit) : s.continueOperation.RegistersFit := by
  unfold State.continueOperation
  split
  · exact (h.clearAcc _).of_sized rfl
  · exact h.of_sized rfl
  · exact sampleOnce_fits h
  · exact h.of_menuWrites (menuReturn_menuWrites s)
  · split
    · exact pollPass_fits h
    · exact settle_fits h _
    · exact h

theorem phaseEnd_sized (s : State) : s.phaseEnd.sized = s.sized := by
  unfold State.phaseEnd; split <;> rfl

theorem routeResult_sized (s : State) : s.routeResult.sized = s.sized := by
  unfold State.routeResult
  split
  · split <;> rfl
  · rfl
  · split
    · rfl
    · split <;> rfl
  all_goals rfl

theorem advance_sized (s : State) : s.advance.sized = s.sized := by
  unfold State.advance
  split
  · rfl
  · exact phaseEnd_sized s

theorem afterOperation_sized (s : State) : s.afterOperation.sized = s.sized := by
  unfold State.afterOperation
  split
  · rfl
  · split
    · rfl
    · exact (advance_sized _).trans (routeResult_sized s)

/-! The agents' steps -/

theorem issue_fits {q : Request} {s t : State} (h : s.RegistersFit) (hx : s.issue q = .next t) : t.RegistersFit := by
  obtain ⟨i, u, -, hu, rfl⟩ | ⟨k, -, rfl⟩ | ⟨-, rfl⟩ := issue_cases hx
  · have hs : (s.pushTrace (encode i).1).RegistersFit := h.of_sized rfl
    exact (exec_fits hs hu).of_sized (afterOperation_sized u)
  · have hs : (s.pushTrace (pressWord k)).RegistersFit := h.of_sized rfl
    exact (hs.of_menuWrites (pressUnlisted_menuWrites k _)).of_sized (afterOperation_sized _)
  · exact h.of_sized rfl

theorem foregroundStep_fits {s t : State} (h : s.RegistersFit) (hx : s.foregroundStep = .next t) : t.RegistersFit := by
  obtain rfl | ⟨-, -, rfl⟩ | ⟨-, -, -, w, d, rest, -, hq⟩ | ⟨-, -, -, q, -, hq⟩ | ⟨-, -, -, -, rfl⟩ :=
    foregroundStep_cases hx
  · exact h
  · exact (continueOperation_fits h).of_sized (afterOperation_sized _)
  · have hs : s.acceptCommand.RegistersFit := h.of_sized rfl
    exact issue_fits hs hq
  · exact issue_fits h hq
  · exact h.of_sized (phaseEnd_sized s)

theorem handlerStep_fits {c : Chip} {p : Pin} {s t : State} (h : s.RegistersFit) (hx : s.handlerStep c p = .next t) :
    t.RegistersFit := by
  have hs : (s.setReport c p).RegistersFit := h.of_sized rfl
  obtain ⟨-, hi⟩ | ⟨-, -, hi⟩ | ⟨-, -, rfl⟩ := handlerStep_cases hx
  · exact execPxIsr_fits hs hi
  · have hs' : ((s.setReport c p).pushTrace (encode (.pxIsr c)).1).RegistersFit := hs.of_sized rfl
    exact execPxIsr_fits hs' hi
  · exact h

/-- R62: a port of `ADC_W` bits carries a value of that width, and reset loads such values (R270). -/
theorem envStep_fits {s : State} (h : s.RegistersFit) (e : EnvStep) : (s.envStep e).RegistersFit := by
  cases e with
  | pin c p v =>
    simp only [State.envStep, State.envPin]
    split <;> exact h.of_sized rfl
  | adc v =>
    refine h.setEnv ⟨fun x hx => ?_, h.calStore, h.wiggleStore⟩
    obtain hx | hx := List.mem_append.1 hx
    · exact h.adc x hx
    · obtain rfl := List.mem_singleton.1 hx
      exact lowBits_fits _ v
  | cal i v => exact h.setEnv ⟨h.adc, cells_fit_set h.calStore i (lowBits_fits _ v), h.wiggleStore⟩
  | wiggle v => exact h.setEnv ⟨h.adc, h.calStore, lowBits_fits _ v⟩
  | ack | menufn | command | straps => exact h.of_sized rfl
  | reset => exact (atReset_registersFit h.widths h.smoothInit h.adc h.calStore h.wiggleStore).of_sized rfl

/-- Settles O23: each agent's step writes such a register by one of the rules above, or leaves it. -/
theorem registersStayInTheirWidths : Obligations.RegistersStayInTheirWidths := by
  intro s t hs h
  have hpop : s.popTurn.RegistersFit := hs.of_sized rfl
  obtain ⟨-, hf⟩ | ⟨c, p, -, hi⟩ | ⟨e, -, rfl⟩ := step_cases h
  · exact foregroundStep_fits hpop hf
  · exact handlerStep_fits hpop hi
  · exact envStep_fits hpop e

end Sys2Proof.Machine
end

section
/-! PROOFS. O19, O20, O21 and O22: what one update, one drain and a sequence of updates do to a decoder (R94, R95, R52), and
the 6-bit form of a table entry (R65). -/

namespace Sys2Proof.Machine

/-! Writing one decoder -/

theorem setEnc_self (e : EncId) (s : State) : s.setEnc e s.enc[e] = s := by
  have h : s.enc.set e s.enc[e] = s.enc := by simp
  simp only [State.setEnc, h]

theorem setEnc_setEnc (e : EncId) (x y : EncState) (s : State) : (s.setEnc e x).setEnc e y = s.setEnc e y := by
  have h : (s.enc.set e x).set e y = s.enc.set e y := by simp
  simp only [State.setEnc, h]

/-! The update -/

section
variable {t : QTable} {accW : Nat} {x : EncState} {a b : Bool}

theorem update_acc_of_noFlag (hcw : (t.entry x.decodeState (sampleOf a b)).dirCW = false)
    (hccw : (t.entry x.decodeState (sampleOf a b)).dirCCW = false) : (x.update t accW a b).acc = x.acc := by
  simp only [EncState.update, hcw, hccw, Bool.false_eq_true, if_false]

theorem update_acc_of_cw (hcw : (t.entry x.decodeState (sampleOf a b)).dirCW = true)
    (hccw : (t.entry x.decodeState (sampleOf a b)).dirCCW = false) :
    (x.update t accW a b).acc = satAcc accW (x.acc + 1) := by
  simp only [EncState.update, hcw, hccw, Bool.false_eq_true, if_true, if_false]

theorem update_acc_of_ccw (hcw : (t.entry x.decodeState (sampleOf a b)).dirCW = false)
    (hccw : (t.entry x.decodeState (sampleOf a b)).dirCCW = true) :
    (x.update t accW a b).acc = satAcc accW (x.acc - 1) := by
  simp only [EncState.update, hcw, hccw, Bool.false_eq_true, if_true, if_false]

end

/-- Settles O19: the update is the entry's next state and its counts, on the one decoder written. -/
theorem qdecUpdateLooksUpTheTable : Obligations.QdecUpdateLooksUpTheTable := by
  intro e a b
  refine ⟨fun adcW => ?_, fun s => ⟨s.updateEnc e a b, rfl, ?_, fun d hd => enc_set_ne _ hd _, rfl⟩⟩
  · have hword : (encode (.qdecUpdate e a b)).1 = 0x1000#16 ||| BitVec.ofNat 16 (e.val * 4 + b.toNat * 2 + a.toNat) := by
      revert e a b; decide
    exact hword ▸ encodedInstructionDecodesBack adcW (.qdecUpdate e a b) rfl
  · rw [State.updateEnc_enc, enc_set_self]
    exact ⟨rfl, update_acc_of_noFlag, update_acc_of_cw, update_acc_of_ccw⟩

/-- A decoder fed a list of samples `(pinA, pinB)`, one update each. -/
def EncState.run (t : QTable) (accW : Nat) (x : EncState) (l : List (Bool × Bool)) : EncState :=
  l.foldl (fun x ab => x.update t accW ab.1 ab.2) x

theorem run_nil (t : QTable) (accW : Nat) (x : EncState) : x.run t accW [] = x := rfl

theorem run_cons (t : QTable) (accW : Nat) (x : EncState) (ab : Bool × Bool) (l : List (Bool × Bool)) :
    x.run t accW (ab :: l) = (x.update t accW ab.1 ab.2).run t accW l := rfl

/-- A list of updates completes and writes its decoder alone. -/
theorem runUpdates_eq (e : EncId) (l : List (Bool × Bool)) (s : State) :
    runUpdates e l s = .next (s.setEnc e (s.enc[e].run s.params.qtable s.params.accW l)) := by
  induction l generalizing s with
  | nil => rw [run_nil, setEnc_self]; rfl
  | cons ab rest ih =>
    obtain ⟨a, b⟩ := ab
    calc runUpdates e ((a, b) :: rest) s = runUpdates e rest (s.updateEnc e a b) := rfl
      _ = _ := by rw [ih, State.updateEnc, setEnc_setEnc, State.setEnc_enc, enc_set_self, run_cons]; rfl

/-! The drain -/

/-- R95, R52: masked, one step. -/
theorem execQdecProcess_masked {s : State} (h : s.sys.irqEnable = false) (e : EncId) :
    exec (.qdecProcess e) s = .next ((s.clearAcc e).respond (directionWord (signDirection s.enc[e].acc))) := by
  simp only [exec, execQdecProcess, h, Bool.false_eq_true, if_false]

/-- R95, R52: unmasked, the first of two micro-steps. -/
theorem execQdecProcess_unmasked {s : State} (h : s.sys.irqEnable = true) (e : EncId) :
    exec (.qdecProcess e) s =
      .next ((s.setSys { s.sys with fgTmp := s.enc[e].acc }).setMicro (.processClear e)) := by
  simp only [exec, execQdecProcess, h, if_true]

/-- The second micro-step, where nothing of the sequencer's follows. -/
theorem step_of_processClear {s : State} {e : EncId} (hn : s.nextTurn = .fg) (hmay : s.fgMayStep = true)
    (hhost : s.straps.seqEn = .host) (hmicro : s.prog.micro = .processClear e) :
    step s = .next (s.popTurn.processFinish e) := by
  have hbusy : s.popTurn.busy = true := by simp [State.busy, hmicro]
  rw [step_of_fg hn, foregroundStep_of_busy (s := s.popTurn) hmay hbusy, State.continueOperation, State.popTurn_prog, hmicro]
  exact congrArg _ (afterOperation_of_host hhost)

/-- A drain from start to end, masked or not: the accumulator is cleared and its sign returned. -/
theorem drain_spec (e : EncId) (s : State) : ∃ t, drain e s = .next t ∧ t.enc = (s.clearAcc e).enc ∧
    t.out.responses = s.out.responses ++ [directionWord (signDirection s.enc[e].acc)] := by
  unfold drain
  cases hirq : s.sys.irqEnable with
  | false =>
    rw [execQdecProcess_masked hirq]
    exact ⟨_, rfl, rfl, rfl⟩
  | true =>
    rw [execQdecProcess_unmasked hirq]
    exact ⟨_, rfl, rfl, rfl⟩

/-- Settles O22: the first drain leaves the accumulator 0, whose sign is `NONE`, and clearing it again changes nothing. -/
theorem secondDrainReturnsNone : Obligations.SecondDrainReturnsNone := by
  intro e s t h
  obtain ⟨t', ht, henc, -⟩ := drain_spec e s
  obtain rfl : t' = t := by rw [ht] at h; cases h; rfl
  obtain ⟨u, hu, huenc, hresp⟩ := drain_spec e t'
  have hacc : t'.enc[e].acc = 0 := by rw [henc, State.clearAcc_enc, enc_set_self]
  have hclear : t'.clearAcc e = t' := by
    rw [State.clearAcc, ← hacc]
    exact setEnc_self e t'
  exact ⟨u, hu, by rw [hresp, hacc]; rfl, by rw [huenc, hclear]⟩

/-- Settles O21: the two forms of the operation; the result is the code of the sign. -/
theorem qdecProcessDrains : Obligations.QdecProcessDrains := by
  intro e
  refine ⟨fun adcW => ?_, fun s r hirq hr => ?_, fun s hirq => execQdecProcess_unmasked hirq e,
    fun s r hn hmay hhost hmicro hr => ?_⟩
  · have hword : (encode (.qdecProcess e)).1 = 0x1100#16 ||| BitVec.ofNat 16 e.val := by revert e; decide
    exact hword ▸ encodedInstructionDecodesBack adcW (.qdecProcess e) rfl
  · rw [execQdecProcess_masked hirq, directionWord_signDirection, ← hr]
    rfl
  · rw [step_of_processClear hn hmay hhost hmicro, State.processFinish, State.popTurn_sys, directionWord_signDirection, ← hr]
    rfl

/-! The form of a table entry -/

/-- R65: the three fields do not overlap, and 6 bits hold them. -/
theorem bits_toNat (q : QEntry) : q.bits.toNat = q.next.code.val + q.dirCW.toNat * 16 + q.dirCCW.toNat * 32 := by
  have hcode := q.next.code.isLt
  have hcw := Bool.toNat_le q.dirCW
  have hccw := Bool.toNat_le q.dirCCW
  rw [QEntry.bits, BitVec.toNat_ofNat]
  omega

/-- Settles O20: the rows by evaluation, the places of the fields by arithmetic. -/
theorem defaultTableEncodesItsRows : Obligations.DefaultTableEncodesItsRows := by
  refine ⟨by decide, fun q => ?_⟩
  have hcode := q.next.code.isLt
  have hcw := Bool.toNat_le q.dirCW
  have hccw := Bool.toNat_le q.dirCCW
  have hbit (b : Bool) {n : Nat} (h : n = b.toNat) : decide (n = 1) = b := by rw [h]; cases b <;> rfl
  simp only [← BitVec.testBit_toNat, Nat.testBit_eq_decide_div_mod_eq, bits_toNat]
  exact ⟨by omega, decide_eq_false (by omega), hbit q.dirCW (by omega), hbit q.dirCCW (by omega)⟩

end Sys2Proof.Machine
end

section
/-! PROOFS. O24, O25 and O27: the default table (R93) under a repeated sample (R98), a full cycle (R100) and exchanged
contacts (R101). Facts that hold by enumeration of its 28 entries stand first. -/

namespace Sys2Proof.Machine

/-! The entries -/

/-- A count goes with the sample 00, out of the last state of a path (R97). -/
theorem defaultQTable_flags (q : DecState) (x : Fin 4) :
    ((defaultQTable.entry q x).dirCW = true → q = .CW_FINAL ∧ x = 0) ∧
    ((defaultQTable.entry q x).dirCCW = true → q = .CCW_FINAL ∧ x = 0) := by
  revert x; cases q <;> decide

/-- The sample 00 leads to `START`. -/
theorem defaultQTable_next_zero (q : DecState) : (defaultQTable.entry q 0).next = .START := by
  cases q <;> rfl

/-- The samples that leave a path on a sample which also begins one (R98). -/
def offPathBegins : List (DecState × Fin 4) := [(.CW_BEGIN, 2), (.CW_FINAL, 1), (.CCW_BEGIN, 1), (.CCW_FINAL, 2)]

/-- Off those, the state reached on a sample is kept by the same sample. -/
theorem defaultQTable_next_next (q : DecState) (x : Fin 4) (h : (q, x) ∉ offPathBegins) :
    (defaultQTable.entry (defaultQTable.entry q x).next x).next = (defaultQTable.entry q x).next := by
  revert x; cases q <;> decide

theorem defaultQTable_next_offPath (q : DecState) (x : Fin 4) (h : (q, x) ∈ offPathBegins) :
    (defaultQTable.entry q x).next = .START ∧
      (defaultQTable.entry .START x).next = if x = 2 then .CCW_BEGIN else .CW_BEGIN := by
  revert x; cases q <;> decide

/-! A repeated sample -/

/-- R98: after a sample the same sample meets no flag, as 00 has led to `START`, which ends no path. -/
theorem defaultQTable_repeat_unflagged (q : DecState) (x : Fin 4) :
    (defaultQTable.entry (defaultQTable.entry q x).next x).dirCW = false ∧
    (defaultQTable.entry (defaultQTable.entry q x).next x).dirCCW = false := by
  obtain ⟨hcw, hccw⟩ := defaultQTable_flags (defaultQTable.entry q x).next x
  refine ⟨Bool.eq_false_iff.2 fun h => ?_, Bool.eq_false_iff.2 fun h => ?_⟩
  · obtain ⟨hq, rfl⟩ := hcw h
    exact absurd (defaultQTable_next_zero q) (by rw [hq]; decide)
  · obtain ⟨hq, rfl⟩ := hccw h
    exact absurd (defaultQTable_next_zero q) (by rw [hq]; decide)

/-- From the second time on the sample changes nothing: a path begun from `START` is not left by the sample that began it. -/
theorem defaultQTable_third (q : DecState) (x : Fin 4) :
    let q2 := (defaultQTable.entry (defaultQTable.entry q x).next x).next
    (defaultQTable.entry q2 x).next = q2 := by
  by_cases h : (q, x) ∈ offPathBegins
  · have hstart : (DecState.START, x) ∉ offPathBegins := by simp [offPathBegins]
    rw [(defaultQTable_next_offPath q x h).1]
    exact defaultQTable_next_next .START x hstart
  · have h2 := defaultQTable_next_next q x h
    simp only [h2]

/-- Settles O24: the repeated sample meets no flag, keeps the state off the four cases, and changes nothing the third time. -/
theorem repeatedSampleNeverCounts : Obligations.RepeatedSampleNeverCounts := by
  intro q x
  obtain ⟨hcw, hccw⟩ := defaultQTable_repeat_unflagged q x
  obtain ⟨hcw', hccw'⟩ := defaultQTable_repeat_unflagged (defaultQTable.entry q x).next x
  refine ⟨hcw, hccw, defaultQTable_next_next q x, fun h => ?_, hcw', hccw', defaultQTable_third q x⟩
  obtain ⟨hstart, hbegin⟩ := defaultQTable_next_offPath q x h
  exact ⟨hstart, hstart ▸ hbegin⟩

/-! Exchanged contacts -/

/-- The entry with the roles of the directions exchanged. -/
def QEntry.mirror (q : QEntry) : QEntry := { next := q.next.mirror, dirCW := q.dirCCW, dirCCW := q.dirCW }

/-- The decoder with the roles of the directions exchanged (R101). -/
def EncState.mirror (x : EncState) : EncState := { decodeState := x.decodeState.mirror, acc := -x.acc }

theorem eq_mirror_iff {x y : EncState} : y = x.mirror ↔ y.decodeState = x.decodeState.mirror ∧ y.acc = -x.acc := by
  cases y; simp [EncState.mirror]

/-- R101: the `CCW` rows are the `CW` rows with the samples 01 and 10 exchanged. -/
theorem defaultQTable_mirror (q : DecState) (a b : Bool) :
    defaultQTable.entry q.mirror (sampleOf b a) = (defaultQTable.entry q (sampleOf a b)).mirror := by
  revert a b; cases q <;> decide

/-- With one flag at most the order of the two counts of an update does not matter. -/
theorem defaultQTable_oneFlag (q : DecState) (x : Fin 4) :
    ¬((defaultQTable.entry q x).dirCW = true ∧ (defaultQTable.entry q x).dirCCW = true) := by
  rintro ⟨hcw, hccw⟩
  obtain ⟨rfl, -⟩ := (defaultQTable_flags q x).1 hcw
  cases ((defaultQTable_flags _ x).2 hccw).1

theorem update_mirror (accW : Nat) (x : EncState) (a b : Bool) :
    x.mirror.update defaultQTable accW b a = (x.update defaultQTable accW a b).mirror := by
  have hentry : defaultQTable.entry x.mirror.decodeState (sampleOf b a) =
      (defaultQTable.entry x.decodeState (sampleOf a b)).mirror := defaultQTable_mirror _ a b
  rw [eq_mirror_iff, update_decodeState, update_decodeState, hentry]
  refine ⟨rfl, ?_⟩
  have hup : -(x.acc + 1) = x.mirror.acc - 1 := neg_add' _ _
  have hdown : -(x.acc - 1) = x.mirror.acc + 1 := (neg_sub' _ _).trans (sub_neg_eq_add _ _)
  cases hcw : (defaultQTable.entry x.decodeState (sampleOf a b)).dirCW with
  | true =>
    have hccw := Bool.eq_false_iff.2 fun h => defaultQTable_oneFlag _ _ ⟨hcw, h⟩
    rw [update_acc_of_cw hcw hccw, update_acc_of_ccw (by rw [hentry]; exact hccw) (by rw [hentry]; exact hcw),
      ← satAcc_neg, hup]
  | false =>
    cases hccw : (defaultQTable.entry x.decodeState (sampleOf a b)).dirCCW with
    | true =>
      rw [update_acc_of_ccw hcw hccw, update_acc_of_cw (by rw [hentry]; exact hccw) (by rw [hentry]; exact hcw),
        ← satAcc_neg, hdown]
    | false =>
      rw [update_acc_of_noFlag hcw hccw, update_acc_of_noFlag (by rw [hentry]; exact hccw) (by rw [hentry]; exact hcw)]
      rfl

/-- A decoder fed the exchanged samples stays the mirror of the decoder fed the samples. -/
theorem run_mirror (accW : Nat) (x : EncState) (l : List (Bool × Bool)) :
    x.mirror.run defaultQTable accW (l.map Prod.swap) = (x.run defaultQTable accW l).mirror := by
  induction l generalizing x with
  | nil => rfl
  | cons ab rest ih => rw [List.map_cons, run_cons, run_cons, ← ih, ← update_mirror]; rfl

/-- Settles O27: the two runs are each other's mirror. -/
theorem exchangedContactsMirrorTheDecoder : Obligations.ExchangedContactsMirrorTheDecoder := by
  intro e l s s' t htab htab' hacc hst hneg h
  have hx : s'.enc[e] = s.enc[e].mirror := eq_mirror_iff.2 ⟨hst, hneg⟩
  rw [runUpdates_eq] at h
  cases h
  refine ⟨_, runUpdates_eq e _ s', eq_mirror_iff.1 ?_⟩
  rw [State.setEnc_enc, State.setEnc_enc, enc_set_self, enc_set_self, htab, htab', hacc, hx]
  exact run_mirror _ _ l

/-! A full cycle -/

/-- The samples `(pinA, pinB)` of the clockwise cycle from rest, 01, 11, 10, 00 (R92 P4). -/
def cwSamples : List (Bool × Bool) := [(true, false), (true, true), (false, true), (false, false)]

/-- R100: from rest the clockwise cycle counts one up. -/
theorem run_cwSamples {accW : Nat} (h : 2 ≤ accW) :
    EncState.reset.run defaultQTable accW cwSamples = { decodeState := .START, acc := 1 } := by
  have hpow : (2 : Int) ^ 1 ≤ 2 ^ (accW - 1) := pow_le_pow_right₀ (by decide) (by omega)
  have hone : satAcc accW (0 + 1) = 1 := satAcc_of_mem (by unfold accMax; omega) (by unfold accMax; omega)
  calc EncState.reset.run defaultQTable accW cwSamples
      = { decodeState := .START, acc := satAcc accW (0 + 1) } := rfl
    _ = _ := by rw [hone]

/-- The counter-clockwise cycle counts one down, as its mirror. -/
theorem run_ccwSamples {accW : Nat} (h : 2 ≤ accW) :
    EncState.reset.run defaultQTable accW (cwSamples.map Prod.swap) = { decodeState := .START, acc := -1 } := by
  have hmirror := run_mirror accW EncState.reset cwSamples
  rw [run_cwSamples h] at hmirror
  exact hmirror

/-- After a sequence of updates one drain returns the direction they leave, and the next one `NONE`. -/
theorem drains_after_updates (e : EncId) (l : List (Bool × Bool)) (s : State) {r : Word}
    (hr : directionWord (signDirection (s.enc[e].run s.params.qtable s.params.accW l).acc) = r) :
    ∃ t u v, runUpdates e l s = .next t ∧ drain e t = .next u ∧ drain e u = .next v ∧
      u.out.responses = s.out.responses ++ [r] ∧ v.out.responses = s.out.responses ++ [r, 0#16] := by
  obtain ⟨u, hu, -, hresp⟩ := drain_spec e (s.setEnc e (s.enc[e].run s.params.qtable s.params.accW l))
  obtain ⟨v, hv, hresp', -⟩ := secondDrainReturnsNone e _ u hu
  rw [State.setEnc_enc, enc_set_self, hr, State.setEnc_out] at hresp
  exact ⟨_, u, v, runUpdates_eq e l s, hu, hv, hresp, by rw [hresp', hresp, List.append_assoc]; rfl⟩

/-- Settles O25: a cycle from rest counts one step, whose direction the first drain takes. -/
theorem fullCycleReturnsItsDirectionOnce : Obligations.FullCycleReturnsItsDirectionOnce := by
  intro e s htab hw hrest
  have hreset : s.enc[e] = EncState.reset := hrest
  refine ⟨drains_after_updates e cwSamples s ?_, drains_after_updates e (cwSamples.map Prod.swap) s ?_⟩
  · rw [htab, hreset, run_cwSamples hw]; rfl
  · rw [htab, hreset, run_ccwSamples hw]; rfl

end Sys2Proof.Machine
end

section
/-! PROOFS. O26: no count without a full cycle (R97, R92 P3, P5), for the default table and for any table that meets R92.
Both directions go through one argument, over the direction. -/

namespace Sys2Proof.Machine

/-! The default table -/

/-- How many samples of the clockwise cycle lead from `START` to the state, on the clockwise path. -/
def DecState.cwSeen : DecState → Nat
  | .START | .CCW_BEGIN | .CCW_NEXT | .CCW_FINAL => 0
  | .CW_BEGIN => 1
  | .CW_NEXT => 2
  | .CW_FINAL => 3

/-- The state is no further on a path than the samples `k`, `k'` of the two cycles that have come. -/
def DecState.notAhead (q : DecState) (k k' : Nat) : Bool := decide (q.cwSeen ≤ k ∧ q.mirror.cwSeen ≤ k')

/-- R92: the default table has the properties asked of any table. -/
theorem defaultQTable_wf : defaultQTable.Wf where
  flagged := by decide
  noEarlyCount l :=
    countsOnlyCycles_of_invariant defaultQTable DecState.notAhead (by intro q; cases q <;> decide) l .START 0 0 rfl
  cwOnce := by decide
  ccwOnce := by decide

/-! Any table -/

/-- The samples `s` of a list of updates (R66). -/
def samples (l : List (Bool × Bool)) : List (Fin 4) := l.map fun ab => sampleOf ab.1 ab.2

theorem samples_cons (ab : Bool × Bool) (l : List (Bool × Bool)) :
    samples (ab :: l) = sampleOf ab.1 ab.2 :: samples l := rfl

/-- Two pairs of contacts that differ give different samples. -/
theorem sublist_of_samples {l l' : List (Bool × Bool)} (h : (samples l').Sublist (samples l)) : l'.Sublist l := by
  have hinj : Function.Injective fun ab : Bool × Bool => sampleOf ab.1 ab.2 := by
    intro x y; revert x y; decide
  obtain ⟨l'', hl'', heq⟩ := List.sublist_map_iff.1 h
  exact List.map_injective_iff.2 hinj heq ▸ hl''

/-- The cycle that counts in a direction (R92 P4). -/
def Direction.cycle : Direction → List (Fin 4)
  | .CW => cwCycle
  | .CCW => ccwCycle
  | .noStep => []

/-- The entry's flag of a direction (R65). -/
def QEntry.flag (q : QEntry) : Direction → Bool
  | .CW => q.dirCW
  | .CCW => q.dirCCW
  | .noStep => false

/-- An accumulator counted in a direction. -/
def Direction.count : Direction → Int → Int
  | .CW, v => v
  | .CCW, v => -v
  | .noStep, _ => 0

/-- What `QTable.countsOnlyCycles` says of the first sample: a flag completes its cycle, and the rest counts only cycles
again, of which no more samples have come. -/
theorem countsOnlyCycles_cons {t : QTable} {q : DecState} {k : Direction → Nat} {s : Fin 4} {rest : List (Fin 4)}
    (h : t.countsOnlyCycles q (k .CW) (k .CCW) (s :: rest) = true) :
    (∀ d, (t.entry q s).flag d = true → cycleStep d.cycle (k d) s = d.cycle.length) ∧
    ∃ k' : Direction → Nat, (∀ d, k' d ≤ cycleStep d.cycle (k d) s) ∧
      t.countsOnlyCycles (t.entry q s).next (k' .CW) (k' .CCW) rest = true := by
  simp only [QTable.countsOnlyCycles, Bool.and_eq_true, Bool.or_eq_true, Bool.not_eq_true', beq_iff_eq] at h
  obtain ⟨⟨hcw, hccw⟩, hrest⟩ := h
  refine ⟨fun d hd => ?_, ?_⟩
  · cases d with
    | CW => exact hcw.resolve_left (by simpa [QEntry.flag] using hd)
    | CCW => exact hccw.resolve_left (by simpa [QEntry.flag] using hd)
    | noStep => cases hd
  · split at hrest
    · exact ⟨fun _ => 0, fun _ => Nat.zero_le _, hrest⟩
    · exact ⟨fun d => cycleStep d.cycle (k d) s, fun _ => le_rfl, hrest⟩

/-- The rest of a cycle before a sample, from the rest of it after the sample. -/
theorem drop_sublist_of_cycleStep {cycle rest : List (Fin 4)} {k : Nat} {s : Fin 4}
    (h : (cycle.drop (cycleStep cycle k s)).Sublist rest) : (cycle.drop k).Sublist (s :: rest) := by
  unfold cycleStep at h
  split at h
  · obtain ⟨hk, rfl⟩ := List.getElem?_eq_some_iff.1 ‹_›
    rw [List.drop_eq_getElem_cons hk]
    exact h.cons_cons _
  · exact h.cons _

/-- An update whose entry has no flag of a direction does not bring the count in that direction above zero. -/
theorem count_pos_of_update {t : QTable} {accW : Nat} {x : EncState} {a b : Bool} {d : Direction}
    (hflag : (t.entry x.decodeState (sampleOf a b)).flag d = false) (h : 0 < d.count (x.update t accW a b).acc) :
    0 < d.count x.acc := by
  have hmax := accMax_nonneg accW
  cases d with
  | CW =>
    cases hccw : (t.entry x.decodeState (sampleOf a b)).dirCCW with
    | false => rwa [update_acc_of_noFlag hflag hccw] at h
    | true =>
      rw [update_acc_of_ccw hflag hccw] at h
      simp only [Direction.count, satAcc] at h ⊢
      omega
  | CCW =>
    cases hcw : (t.entry x.decodeState (sampleOf a b)).dirCW with
    | false => rwa [update_acc_of_noFlag hcw hflag] at h
    | true =>
      rw [update_acc_of_cw hcw hflag] at h
      simp only [Direction.count, satAcc] at h ⊢
      omega
  | noStep => exact h

/-- Where a table counts only full cycles, a count above zero was there before, or the rest of the direction's cycle is
among the samples. -/
theorem cycle_sublist_of_count {t : QTable} {accW : Nat} {d : Direction} {l : List (Bool × Bool)} {x : EncState}
    {k : Direction → Nat} (hcyc : t.countsOnlyCycles x.decodeState (k .CW) (k .CCW) (samples l) = true)
    (hpos : 0 < d.count (x.run t accW l).acc) : 0 < d.count x.acc ∨ (d.cycle.drop (k d)).Sublist (samples l) := by
  induction l generalizing x k with
  | nil => exact .inl hpos
  | cons ab rest ih =>
    rw [samples_cons] at hcyc ⊢
    obtain ⟨hfull, k', hk', hrest⟩ := countsOnlyCycles_cons hcyc
    cases hflag : (t.entry x.decodeState (sampleOf ab.1 ab.2)).flag d with
    | true =>
      have hend : d.cycle.drop (cycleStep d.cycle (k d) (sampleOf ab.1 ab.2)) = [] := by
        rw [hfull d hflag, List.drop_length]
      exact .inr (drop_sublist_of_cycleStep (hend ▸ List.nil_sublist _))
    | false =>
      obtain hacc | hsub := ih (x := x.update t accW ab.1 ab.2) hrest hpos
      · exact .inl (count_pos_of_update hflag hacc)
      · exact .inr (drop_sublist_of_cycleStep ((List.drop_sublist_drop_left _ (hk' d)).trans hsub))

/-- R97 for any table that meets R92: from rest, a count in a direction needs the samples of its cycle in their order. -/
theorem cycle_sublist_of_wf {t : QTable} (ht : t.Wf) {accW : Nat} {d : Direction} {l : List (Bool × Bool)}
    (h : 0 < d.count (EncState.reset.run t accW l).acc) : d.cycle.Sublist (samples l) := by
  have hcyc := ht.noEarlyCount (samples l)
  obtain h0 | hsub := cycle_sublist_of_count (x := EncState.reset) (k := fun _ => 0) hcyc h
  · cases d <;> cases h0
  · exact hsub

/-- Settles O26: the samples of the two cycles are those of the two lists of contacts. -/
theorem countNeedsAFullCycle : Obligations.CountNeedsAFullCycle := by
  refine ⟨defaultQTable_wf, fun e l s t ht hrest h => ?_⟩
  have hreset : s.enc[e] = EncState.reset := hrest
  rw [runUpdates_eq] at h
  cases h
  rw [State.setEnc_enc, enc_set_self, hreset]
  exact ⟨fun hpos => sublist_of_samples (cycle_sublist_of_wf (d := .CW) ht hpos),
    fun hneg => sublist_of_samples (cycle_sublist_of_wf (d := .CCW) ht (Int.neg_pos_of_neg hneg))⟩

end Sys2Proof.Machine
end

section
/-! PROOFS. O28, O29: the smoothing step (R111) and the steps that it takes for stable (R112, R122). -/

namespace Sys2Proof.Machine

/-- Settles O28: the floor division of a weighted sum of two operands, with ten parts in all. -/
theorem smoothingStaysBetweenItsOperands : Obligations.SmoothingStaysBetweenItsOperands := by
  intro adcW raw prev hraw hprev
  refine ⟨smoothStep_toNat raw prev, ?_, smoothStep_fits hraw hprev, ?_, ?_⟩
  · unfold SampleFits at hraw hprev; omega
  · rw [smoothStep_toNat]; omega
  · rw [smoothStep_toNat]; omega

/-- R112: the estimate moves by the floor of a tenth of the difference, so that it moves by at most 3 for differences from
-30 to 39. -/
theorem stableFlag_smoothStep_iff (raw prev : Sample) :
    stableFlag (smoothStep raw prev) prev = true ↔
      -30 ≤ (raw.toNat : Int) - prev.toNat ∧ (raw.toNat : Int) - prev.toNat ≤ 39 := by
  rw [stableFlag, decide_eq_true_iff, smoothStep_toNat, Config.stabEps]
  omega

/-- R122: the distance left between the estimate and the conversion result is nine tenths of the difference, rounded up. -/
theorem distance_of_stable {raw prev : Sample} (h : stableFlag (smoothStep raw prev) prev = true) :
    -27 ≤ (raw.toNat : Int) - (smoothStep raw prev).toNat ∧ (raw.toNat : Int) - (smoothStep raw prev).toNat ≤ 36 := by
  rw [stableFlag_smoothStep_iff] at h
  rw [smoothStep_toNat]
  omega

/-- A stable pass of 10-bit samples that leaves the distance `x`: from the estimate 100, a difference of which `x` is nine
tenths, rounded up. At `x` = 36 that difference is 39 and not 40, which is no longer stable. -/
theorem exists_stable_distance {x : Int} (hlo : -27 ≤ x) (hhi : x ≤ 36) : ∃ raw prev : Sample,
    SampleFits 10 raw ∧ SampleFits 10 prev ∧ stableFlag (smoothStep raw prev) prev = true ∧
      (raw.toNat : Int) - (smoothStep raw prev).toNat = x := by
  have hprev : (100#16 : Sample).toNat = 100 := rfl
  have hraw : (BitVec.ofNat 16 (100 + x + min (x / 9) 3).toNat).toNat = (100 + x + min (x / 9) 3).toNat := by
    rw [BitVec.toNat_ofNat]; omega
  refine ⟨BitVec.ofNat 16 (100 + x + min (x / 9) 3).toNat, 100#16, ?_, by decide, ?_, ?_⟩
  · rw [SampleFits, hraw]; omega
  · rw [stableFlag_smoothStep_iff, hraw, hprev]; omega
  · rw [smoothStep_toNat, hraw, hprev]; omega

/-- Settles O29: the two ranges, and a pass for every distance of the second. -/
theorem stableExactlyOnSmallSteps : Obligations.StableExactlyOnSmallSteps :=
  ⟨fun raw prev => ⟨stableFlag_smoothStep_iff raw prev, distance_of_stable⟩, fun _ => exists_stable_distance⟩

end Sys2Proof.Machine
end

section
/-! PROOFS. O33, O34, O37 and O38: the classification (R114, R115) and the operations that load its table (R119, R120). When a
verdict is a match is said once; what the verdict returns under the table invariant or with tolerance 0 follows. -/

namespace Sys2Proof.Machine

/-! The scan -/

/-- The scan in rising order of the indices finds the lowest one that passes (R114). -/
theorem find?_buttons_eq_some_iff {n : Nat} {p : Button → Bool} {i : Button} :
    (buttons n).find? p = some i ↔ i.val < n ∧ p i = true ∧ ∀ j : Button, j < i → p j = false := by
  have hget (k : Nat) (hk : k < (buttons n).length) :
      (buttons n)[k] = ⟨k, by simp only [buttons, List.length_take, List.length_finRange] at hk; omega⟩ := by
    simp [buttons]
  rw [List.find?_eq_some_iff_getElem]
  constructor
  · rintro ⟨hp, k, hk, hki, hlow⟩
    rw [hget] at hki
    subst hki
    refine ⟨mem_buttons.1 (hget k hk ▸ List.getElem_mem hk), hp, fun j hj => ?_⟩
    simpa only [hget, Bool.not_eq_true'] using hlow j.val hj
  · rintro ⟨hi, hp, hlow⟩
    have hlen : i.val < (buttons n).length := by
      have := i.isLt
      simp only [buttons, List.length_take, List.length_finRange]
      omega
    refine ⟨hp, i.val, hlen, hget i.val hlen, fun j hj => ?_⟩
    simpa only [hget, Bool.not_eq_true'] using hlow ⟨j, hj.trans i.isLt⟩ hj

/-! The verdict -/

theorem inWindow_iff (a : AbcRegs) (v : Sample) (i : Button) :
    a.inWindow v i = true ↔ ((v.toNat : Int) - a.cal[i].toNat).natAbs < a.wiggleRoom.toNat := decide_eq_true_iff

/-- R114: a value is button `i` when the table is loaded, the value is not above the threshold, and `i` is the lowest index
whose window holds it. -/
theorem classify_eq_hit_iff {a : AbcRegs} {n : Nat} {v : Sample} {i : Button} :
    a.classify n v = .hit i ↔ a.calibrated n = true ∧ ¬a.cal[0].toNat + a.wiggleRoom.toNat < v.toNat ∧
      i.val < n ∧ a.inWindow v i = true ∧ ∀ j : Button, j < i → a.inWindow v j = false := by
  rw [← find?_buttons_eq_some_iff]
  unfold AbcRegs.classify
  cases a.calibrated n with
  | false => simp
  | true =>
    by_cases hidle : a.cal[0].toNat + a.wiggleRoom.toNat < v.toNat
    · simp [hidle]
    · cases (buttons n).find? (a.inWindow v) <;> simp [hidle]

theorem verdict_idx_eq_buttonIdx_iff {r : Verdict} {i : Button} : r.idx = buttonIdx i ↔ r = .hit i := by
  cases r with
  | hit j => exact ⟨fun h => congrArg _ (buttonIdx_injective j i h), fun h => by cases h; rfl⟩
  | uncalibrated | noInput | unmapped => exact ⟨fun h => absurd h.symm (buttonIdx_ne_none i), nofun⟩

theorem verdict_idx_eq_none {r : Verdict} (h : ∀ i, r ≠ .hit i) : r.idx = Idx.NONE := by
  cases r with
  | hit i => exact absurd rfl (h i)
  | uncalibrated | noInput | unmapped => rfl

/-- Outside every window nothing is classified (R242). -/
theorem classify_idx_of_noWindow {a : AbcRegs} {n : Nat} {v : Sample}
    (h : ∀ i : Button, i.val < n → ¬a.inWindow v i = true) : (a.classify n v).idx = Idx.NONE :=
  verdict_idx_eq_none fun i hit =>
    have ⟨_, _, hi, hwin, _⟩ := classify_eq_hit_iff.1 hit
    h i hi hwin

/-- Above the threshold nothing is classified (R241). -/
theorem classify_idx_of_idle {a : AbcRegs} {n : Nat} {v : Sample}
    (h : a.cal[0].toNat + a.wiggleRoom.toNat < v.toNat) : (a.classify n v).idx = Idx.NONE :=
  verdict_idx_eq_none fun _ hit =>
    have ⟨_, hidle, _⟩ := classify_eq_hit_iff.1 hit
    hidle h

/-! The result on `dout` -/

/-- R69: a button index on the port is its number. -/
theorem idxWord_buttonIdx (i : Button) : idxWord (buttonIdx i) = BitVec.ofNat 16 i.val := by revert i; decide

/-- R69: `NONE` on the port. -/
theorem idxWord_none : idxWord Idx.NONE = 0xFFFF#16 := by decide

theorem exec_abcClassify_of_fits {v : Word} {s : State} (h : v.toNat < 2 ^ s.params.adcW) :
    exec (.abcClassify v) s = .next (s.classifyRespond v) := if_pos h

theorem calibrated_of_loaded {a : AbcRegs} {n : Nat} (hwr : a.wrValid = true)
    (hcal : ∀ i : Button, i.val < n → a.calValid[i] = true) : a.calibrated n = true := by
  rw [AbcRegs.calibrated, hwr, Bool.true_and, List.all_eq_true]
  exact fun i hi => hcal i (mem_buttons.1 hi)

/-- Settles O33: the three ends of the classification, by the verdict. -/
theorem classifyReturnsTheLowestMatch : Obligations.ClassifyReturnsTheLowestMatch := by
  refine ⟨fun adcW v hv => ?_, fun v s hv hload => ?_, fun v s hv hwr hcal => ?_⟩
  · exact encodedInstructionDecodesBack adcW (.abcClassify v) (decide_eq_true hv)
  · rw [exec_abcClassify_of_fits hv, classifyRespond_of_uncalibrated v ((calibrated_eq_false _ _).2 hload)]
    rfl
  · have hloaded := calibrated_of_loaded hwr hcal
    refine ⟨idxWord (s.abc.classify s.params.nSw v).idx, ?_, fun hidle => ?_,
      fun hidle => ⟨fun i hi hwin hlow => ?_, fun hwin => ?_⟩⟩
    · rw [exec_abcClassify_of_fits hv, classifyRespond_of_calibrated v hloaded]
      rfl
    · rw [classify_idx_of_idle hidle, idxWord_none]
    · have hit : s.abc.classify s.params.nSw v = .hit i := classify_eq_hit_iff.2
        ⟨hloaded, hidle, hi, (inWindow_iff _ _ _).2 hwin,
          fun j hj => Bool.eq_false_iff.2 fun h => hlow j hj ((inWindow_iff _ _ _).1 h)⟩
      rw [hit]
      exact idxWord_buttonIdx i
    · rw [classify_idx_of_noWindow fun i hi h => hwin i hi ((inWindow_iff _ _ _).1 h), idxWord_none]

/-! Under the table invariant -/

/-- The entries fall from index to index. -/
theorem cal_le_of_separated {a : AbcRegs} {n : Nat} (h : a.Separated n) {i j : Button} (hij : i ≤ j) (hj : j.val < n) :
    a.cal[j].toNat ≤ a.cal[i].toNat := by
  obtain ⟨-, hsep⟩ := h
  obtain rfl | hlt := hij.eq_or_lt
  · exact le_rfl
  · have := hsep i j hlt hj
    omega

/-- R115: with the entries so far apart a value lies in one window at most, and never above the threshold. -/
theorem classify_eq_hit_of_inWindow {a : AbcRegs} {n : Nat} {v : Sample} (hload : a.calibrated n = true)
    (hsep : a.Separated n) {i : Button} (hi : i.val < n) (hwin : a.inWindow v i = true) : a.classify n v = .hit i := by
  have hnear := (inWindow_iff a v i).1 hwin
  refine classify_eq_hit_iff.2 ⟨hload, ?_, hi, hwin, fun j hj => Bool.eq_false_iff.2 fun hwin' => ?_⟩
  · have hle : a.cal[i].toNat ≤ a.cal[(0 : Button)].toNat := cal_le_of_separated hsep (Fin.zero_le i) hi
    have h0 : a.cal[(0 : Button)] = a.cal[0] := rfl
    rw [h0] at hle
    omega
  · obtain ⟨-, hfar⟩ := hsep
    have hgap := hfar j i hj hi
    have hnear' := (inWindow_iff a v j).1 hwin'
    omega

/-- Settles O34: a window is the integers nearer to its entry than the tolerance. -/
theorem windowsDecideTheButton : Obligations.WindowsDecideTheButton := by
  intro a n v hload hsep
  refine ⟨fun i hi => ?_, fun hnone => classify_idx_of_noWindow fun i hi hwin => ?_⟩
  · have hmatch : (a.classify n v).idx = BitVec.ofNat 8 i.val ↔ a.inWindow v i = true := by
      refine verdict_idx_eq_buttonIdx_iff.trans ⟨fun hit => ?_, classify_eq_hit_of_inWindow hload hsep hi⟩
      obtain ⟨-, -, -, hwin, -⟩ := classify_eq_hit_iff.1 hit
      exact hwin
    rw [hmatch, inWindow_iff]
    omega
  · have hnear := (inWindow_iff a v i).1 hwin
    exact hnone i hi (by omega)

/-! Loading the table -/

theorem exec_abcCalload_of_fits {j : BitVec 5} {v : Word} {s : State} (h : v.toNat < 2 ^ s.params.adcW) :
    exec (.abcCalload j v) s =
      if j.toNat < s.params.nSw then .next (s.setAbc (s.abc.loadCal j.toFin v)) else .next s.outOfContract := if_pos h

theorem loadCal_self (a : AbcRegs) (i : Button) (v : Sample) :
    (a.loadCal i v).cal[i] = v ∧ (a.loadCal i v).calValid[i] = true :=
  ⟨cell_set_self a.cal i v, Vector.getElem_set_self _⟩

theorem loadCal_ne (a : AbcRegs) {i j : Button} (h : j ≠ i) (v : Sample) :
    (a.loadCal i v).cal[j] = a.cal[j] ∧ (a.loadCal i v).calValid[j] = a.calValid[j] :=
  ⟨cell_set_ne a.cal h v, Vector.getElem_set_ne i.isLt j.isLt (Fin.val_ne_of_ne h.symm)⟩

/-- Settles O37: the index decides between the write and the refusal. -/
theorem calloadWritesOneEntry : Obligations.CalloadWritesOneEntry := by
  intro j v s hv
  refine ⟨?_, fun hn => ?_, fun i hij hi => ?_⟩
  · have hword : (encode (.abcCalload j v)).1 = 0x2400#16 ||| j.setWidth 16 := by
      show wordOf 2 4 j.toNat = _
      clear hv
      revert j; decide
    exact hword ▸ encodedInstructionDecodesBack s.params.adcW (.abcCalload j v) (decide_eq_true hv)
  · rw [exec_abcCalload_of_fits hv, if_neg (not_lt.2 hn)]
    rfl
  · have hj : j.toFin = i := Fin.ext hij
    rw [exec_abcCalload_of_fits hv, if_pos (hij ▸ hi), hj]
    obtain ⟨hcal, hvalid⟩ := loadCal_self s.abc i v
    exact ⟨_, rfl, hcal, hvalid, fun i' hi' => loadCal_ne s.abc hi' v, rfl⟩

/-- Settles O38: no distance is below 0, so that with tolerance 0 every window is empty. -/
theorem wrloadWritesTheTolerance : Obligations.WrloadWritesTheTolerance := by
  refine ⟨fun adcW v hv => ?_, fun v s hv => if_pos hv, fun a n v hzero => classify_idx_of_noWindow fun i _ hwin => ?_⟩
  · exact encodedInstructionDecodesBack adcW (.abcWrload v) (decide_eq_true hv)
  · rw [inWindow_iff, hzero] at hwin
    exact Nat.not_lt_zero _ hwin

end Sys2Proof.Machine
end

section
/-! PROOFS. O30, O31, O35 and O36: the operations of the classifier, one foreground step at a time (R112, R113, R116 to R118). -/

namespace Sys2Proof.Machine

/-! A foreground step of an operation in progress -/

/-- With the host driving, the foreground's step goes on with the operation in progress and adds nothing to it. -/
theorem step_of_inProgress {s : State} (hn : s.nextTurn = .fg) (hmay : s.fgMayStep = true) (hhost : s.straps.seqEn = .host)
    (hbusy : s.busy = true) : step s = .next s.popTurn.continueOperation := by
  have hstraps : s.popTurn.continueOperation.straps = s.straps := (config_eq_iff.1 (continueOperation_config _)).2
  rw [step_of_fg hn, foregroundStep_of_busy (s := s.popTurn) hmay hbusy, afterOperation_of_host (hstraps ▸ hhost)]

theorem busy_of_micro {s : State} (h : s.prog.micro ≠ .idle) : s.busy = true := by simp [State.busy, h]

theorem busy_of_abcState {s : State} (h : s.abc.abcState ≠ .ABC_IDLE) : s.busy = true := by simp [State.busy, h]

theorem continueOperation_of_sampleWait {s : State} (h : s.prog.micro = .sampleWait) : s.continueOperation = s.sampleOnce := by
  simp only [State.continueOperation, h]

theorem continueOperation_of_settling {s : State} (hmicro : s.prog.micro = .idle) (h : s.abc.abcState = .ABC_SETTLING) :
    s.continueOperation = s.settleFinish := by
  simp only [State.continueOperation, hmicro, h]

theorem continueOperation_of_sampling {s : State} (hmicro : s.prog.micro = .idle) (h : s.abc.abcState = .ABC_SAMPLING) :
    s.continueOperation = s.pollPass := by
  simp only [State.continueOperation, hmicro, h]

/-! `abc.settle` and `abc.sample` -/

/-- Settles O36: the second micro-step is the foreground's step on an operation in progress. -/
theorem settleIsTwoMicroSteps : Obligations.SettleIsTwoMicroSteps := by
  refine ⟨fun adcW _ => encodedInstructionDecodesBack adcW .abcSettle rfl, fun s => rfl,
    fun s hn hmay hhost hmicro hset => ?_⟩
  rw [step_of_inProgress hn hmay hhost (busy_of_abcState (by rw [hset]; decide)),
    continueOperation_of_settling (s := s.popTurn) hmicro hset]
  rfl

theorem dropAdc_cons {s : State} {raw : Sample} {rest : List Sample} (h : s.env.adc = raw :: rest) :
    s.dropAdc = s.setEnv { s.env with adc := rest } := by
  simp only [State.dropAdc, h, List.tail_cons]

theorem sampleOnce_nil {s : State} (h : s.env.adc = []) : s.sampleOnce = s.setMicro .sampleWait := by
  simp only [State.sampleOnce, h]

theorem sampleOnce_cons {s : State} {raw : Sample} {rest : List Sample} (h : s.env.adc = raw :: rest) :
    s.sampleOnce = (((s.setEnv { s.env with adc := rest }).setAbc (s.abc.filter raw)).respond
      (smoothStep raw s.abc.smoothed)).setMicro .idle := by
  simp only [State.sampleOnce, h, dropAdc_cons h]

/-- Settles O30: with a result there or not; the wait goes on with the operation itself. -/
theorem abcSampleFiltersOneConversion : Obligations.AbcSampleFiltersOneConversion := by
  refine ⟨fun adcW _ => encodedInstructionDecodesBack adcW .abcSample rfl,
    fun s raw rest hadc => ⟨smoothStep raw s.abc.smoothed, smoothStep_toNat raw _, ?_⟩,
    fun s hadc => congrArg _ (sampleOnce_nil hadc), fun s hn hmay hhost hmicro _ => ?_⟩
  · exact congrArg _ (sampleOnce_cons hadc)
  · rw [step_of_inProgress hn hmay hhost (busy_of_micro (by rw [hmicro]; decide)),
      continueOperation_of_sampleWait (s := s.popTurn) hmicro]
    rfl

/-! A pass of `abc.poll` -/

theorem filter_of_stableFlag {a : AbcRegs} {raw : Sample} {b : Bool}
    (h : stableFlag (smoothStep raw a.smoothed) a.smoothed = b) :
    a.filter raw = { a with smoothed := smoothStep raw a.smoothed, smoothedPrev := a.smoothed, stable := b } := by
  rw [← h]; rfl

section
variable {s : State} {raw : Sample} {rest : List Sample}

/-- R113: a pass that is not stable goes on sampling. -/
theorem pollPass_of_unstable (h : s.env.adc = raw :: rest) (hs : s.params.floatSentinel ≠ some raw)
    (hst : stableFlag (smoothStep raw s.abc.smoothed) s.abc.smoothed = false) :
    s.pollPass = (s.setEnv { s.env with adc := rest }).setAbc (s.abc.filter raw) := by
  rw [pollPass_cons h hs, hst, dropAdc_cons h, if_neg Bool.false_ne_true]

/-- R113: a stable pass ends with the classification of the estimate. -/
theorem pollPass_of_stable (h : s.env.adc = raw :: rest) (hs : s.params.floatSentinel ≠ some raw)
    (hst : stableFlag (smoothStep raw s.abc.smoothed) s.abc.smoothed = true) :
    s.pollPass = ((s.setEnv { s.env with adc := rest }).setAbc
        { s.abc.filter raw with abcState := .ABC_IDLE }).classifyRespond (smoothStep raw s.abc.smoothed) := by
  rw [pollPass_cons h hs, hst, dropAdc_cons h, if_pos rfl]

/-- What a stable pass returns with the table loaded (R114): the filter registers have no part in it. -/
theorem pollPass_of_stable_calibrated (h : s.env.adc = raw :: rest) (hs : s.params.floatSentinel ≠ some raw)
    (hst : stableFlag (smoothStep raw s.abc.smoothed) s.abc.smoothed = true)
    (hcal : s.abc.calibrated s.params.nSw = true) :
    s.pollPass = ((s.setEnv { s.env with adc := rest }).setAbc
        { s.abc.filter raw with abcState := .ABC_IDLE }).respond
          (idxWord (s.abc.classify s.params.nSw (smoothStep raw s.abc.smoothed)).idx) := by
  rw [pollPass_of_stable h hs hst]
  exact classifyRespond_of_calibrated _ hcal

/-- What it does with the table not loaded (R118). -/
theorem pollPass_of_stable_uncalibrated (h : s.env.adc = raw :: rest) (hs : s.params.floatSentinel ≠ some raw)
    (hst : stableFlag (smoothStep raw s.abc.smoothed) s.abc.smoothed = true)
    (hcal : s.abc.calibrated s.params.nSw = false) :
    s.pollPass = (((s.setEnv { s.env with adc := rest }).setAbc
        { s.abc.filter raw with abcState := .ABC_IDLE }).setFault F_CAL).respond 0xFFFF#16 := by
  rw [pollPass_of_stable h hs hst]
  exact classifyRespond_of_uncalibrated _ hcal

end

/-! The first pass -/

/-- `abc.poll` begun from the estimate `start` (R113). -/
def State.pollBegun (start : Sample) (s : State) : State :=
  s.setAbc { s.abc with abcState := .ABC_SAMPLING, smoothed := start }

/-- R113: `abc.poll` begins and takes its first pass. -/
theorem exec_abcPoll {s : State} {start : Sample}
    (h : start = if s.params.abcReinit then s.params.smoothInit else s.abc.smoothed) :
    exec .abcPoll s = .next (s.pollBegun start).pollPass := by
  rw [h]; rfl

/-- Settles O31: the four ends of the first pass. -/
theorem abcPollTakesItsFirstPass : Obligations.AbcPollTakesItsFirstPass := by
  refine ⟨fun adcW _ => encodedInstructionDecodesBack adcW .abcPoll rfl, fun s start hstart => ?_⟩
  rw [exec_abcPoll hstart]
  refine ⟨fun raw rest hadc hs => ?_, fun raw rest hadc hs hcal hst => ?_, fun raw rest hadc hs hst => ?_, fun hadc => ?_⟩
  · rw [pollPass_sentinel (s := s.pollBegun start) hadc hs, dropAdc_cons (s := s.pollBegun start) hadc]
    rfl
  · rw [pollPass_of_stable_calibrated (s := s.pollBegun start) hadc hs hst hcal,
      filter_of_stableFlag (a := (s.pollBegun start).abc) hst]
    rfl
  · rw [pollPass_of_unstable (s := s.pollBegun start) hadc hs hst, filter_of_stableFlag (a := (s.pollBegun start).abc) hst]
    rfl
  · rw [pollPass_nil (s := s.pollBegun start) hadc]
    rfl

/-- Settles O35: `Classify` without its table, and the stable pass that ends with it. -/
theorem uncalibratedClassificationSetsFault : Obligations.UncalibratedClassificationSetsFault := by
  intro s hload
  have hcal : s.abc.calibrated s.params.nSw = false := (calibrated_eq_false _ _).2 hload
  refine ⟨fun v => classifyRespond_of_uncalibrated v hcal, fun raw start rest hadc hs hstart hst => ?_⟩
  rw [exec_abcPoll hstart, pollPass_of_stable_uncalibrated (s := s.pollBegun start) hadc hs hst hcal,
    filter_of_stableFlag (a := (s.pollBegun start).abc) hst]
  rfl

end Sys2Proof.Machine
end

section
/-! PROOFS. O32: `abc.poll` run to its end (R124). The passes of the loop are the steps of a block whose turns are the
foreground's; the passes that are not stable fold the filter, and the last result ends the poll. -/

namespace Sys2Proof.Machine

/-! The passes that are not stable -/

theorem filterRun_concat (prev raw : Sample) (raws : List Sample) :
    filterRun prev (raws ++ [raw]) = smoothStep raw (filterRun prev raws) := List.foldl_concat ..

/-- A poll ends on its last result: before it no pass is stable. -/
theorem stabilisesOn_iff {prev : Sample} {raws : List Sample} : StabilisesOn prev raws ↔
    ∃ init last, raws = init ++ [last] ∧ NeverStable prev init ∧
      stableFlag (smoothStep last (filterRun prev init)) (filterRun prev init) = true := by
  constructor
  · intro h
    induction raws generalizing prev with
    | nil => exact h.elim
    | cons raw rest ih =>
      cases rest with
      | nil => exact ⟨[], raw, rfl, trivial, h⟩
      | cons raw' rest' =>
        obtain ⟨hst, hrest⟩ := h
        obtain ⟨init, last, heq, hinit, hlast⟩ := ih hrest
        exact ⟨raw :: init, last, by rw [heq]; rfl, ⟨hst, hinit⟩, hlast⟩
  · rintro ⟨init, last, rfl, hinit, hlast⟩
    induction init generalizing prev with
    | nil => exact hlast
    | cons raw rest ih =>
      obtain ⟨hst, hrest⟩ := hinit
      have htail := ih hrest hlast
      cases rest <;> exact ⟨hst, htail⟩

/-! The steps of a poll under way -/

/-- `abc.poll` is under way, the host drives and the foreground may step. -/
structure State.Polling (s : State) : Prop where
  mayStep : s.fgMayStep = true
  host : s.straps.seqEn = .host
  micro : s.prog.micro = .idle
  sampling : s.abc.abcState = .ABC_SAMPLING

/-- In the foreground's turn a poll under way takes a pass. -/
theorem step_of_polling {s : State} (h : s.Polling) {ts : List Turn} (ht : s.turns = .fg :: ts) :
    step s = .next (State.pollPass { s with turns := ts }) := by
  have hpop : s.popTurn = { s with turns := ts } := by simp only [State.popTurn, comingTurns_of_cons ht, List.tail_cons]
  rw [step_of_inProgress (nextTurn_of_coming (comingTurns_of_cons ht)) h.mayStep h.host
    (busy_of_abcState (by rw [h.sampling]; decide)),
    continueOperation_of_sampling (s := s.popTurn) h.micro h.sampling, hpop]

theorem run_succ_of_next {s t : State} (h : step s = .next t) (n : Nat) : core.run (n + 1) s = core.run n t := by
  have hstep : core.step s = .next t := h
  simp only [Host.Core.run, hstep]

/-- The first pass of `abc.poll` is the first step of a poll under way whose first turn is the foreground's. -/
theorem andThen_abcPoll {s : State} {start : Sample}
    (hstart : start = if s.params.abcReinit then s.params.smoothInit else s.abc.smoothed)
    (hpoll : (s.pollBegun start).Polling) (n : Nat) :
    andThen (exec .abcPoll s) (core.run n) = core.run (n + 1) { s.pollBegun start with turns := .fg :: s.turns } := by
  have hfirst : State.Polling { s.pollBegun start with turns := .fg :: s.turns } :=
    ⟨hpoll.mayStep, hpoll.host, hpoll.micro, hpoll.sampling⟩
  rw [exec_abcPoll hstart, run_succ_of_next (step_of_polling hfirst rfl)]
  rfl

/-- The state after the passes of `raws`, none of them stable, with the results `more` and the turns `ts` still to come. -/
def State.afterPasses (raws more : List Sample) (ts : List Turn) (s : State) : State :=
  { s with
    turns := ts
    abc := { s.abc with
      smoothed := filterRun s.abc.smoothed raws
      smoothedPrev := if raws = [] then s.abc.smoothedPrev else filterRun s.abc.smoothed raws.dropLast
      stable := if raws = [] then s.abc.stable else false }
    env := { s.env with adc := more } }

theorem State.Polling.afterPasses {s : State} (h : s.Polling) (raws more : List Sample) (ts : List Turn) :
    (s.afterPasses raws more ts).Polling :=
  ⟨h.mayStep, h.host, h.micro, h.sampling⟩

theorem afterPasses_nil (s : State) : s.afterPasses [] s.env.adc s.turns = s := rfl

theorem afterPasses_cons (raw : Sample) (rest more more' : List Sample) (ts ts' : List Turn) (s : State) :
    (s.afterPasses [raw] more' ts').afterPasses rest more ts = s.afterPasses (raw :: rest) more ts := by
  cases rest <;> rfl

theorem pollPass_eq_afterPasses {s : State} {raw : Sample} {rest : List Sample} (h : s.env.adc = raw :: rest)
    (hs : s.params.floatSentinel ≠ some raw)
    (hst : stableFlag (smoothStep raw s.abc.smoothed) s.abc.smoothed = false) :
    s.pollPass = s.afterPasses [raw] rest s.turns := by
  rw [pollPass_of_unstable h hs hst, filter_of_stableFlag hst]; rfl

theorem afterPasses_classify (raws more : List Sample) (ts : List Turn) (s : State) (n : Nat) (v : Sample) :
    (s.afterPasses raws more ts).abc.classify n v = s.abc.classify n v :=
  classify_congr _ _ n v rfl rfl rfl rfl

/-- R124: as long as no pass is stable and no result the sentinel, the run consumes one result a turn. -/
theorem run_passes {raws more : List Sample} {ts : List Turn} {s : State} (h : s.Polling)
    (hns : ∀ r ∈ raws, s.params.floatSentinel ≠ some r) (hadc : s.env.adc = raws ++ more)
    (hun : NeverStable s.abc.smoothed raws) (hturns : s.turns = List.replicate raws.length .fg ++ ts) (n : Nat) :
    core.run (raws.length + n) s = core.run n (s.afterPasses raws more ts) := by
  induction raws generalizing s with
  | nil =>
    obtain rfl : s.turns = ts := hturns
    obtain rfl : s.env.adc = more := hadc
    rw [afterPasses_nil, List.length_nil, Nat.zero_add]
  | cons raw rest ih =>
    obtain ⟨hst, hrest⟩ := hun
    obtain ⟨hraw, hns'⟩ := List.forall_mem_cons.1 hns
    have hturns' : s.turns = .fg :: (List.replicate rest.length .fg ++ ts) := hturns
    have hpass := pollPass_eq_afterPasses (s := { s with turns := List.replicate rest.length .fg ++ ts }) hadc hraw hst
    rw [List.length_cons, Nat.add_right_comm, run_succ_of_next (step_of_polling h hturns'), hpass]
    exact (ih (h.afterPasses [raw] _ _) hns' rfl hrest rfl).trans (congrArg _ (afterPasses_cons ..))

/-- One more turn is one more pass. -/
theorem run_passes_succ {raws more : List Sample} {s : State} (h : s.Polling)
    (hns : ∀ r ∈ raws, s.params.floatSentinel ≠ some r) (hadc : s.env.adc = raws ++ more)
    (hun : NeverStable s.abc.smoothed raws) (hturns : s.turns = List.replicate raws.length .fg ++ [.fg]) :
    core.run (raws.length + 1) s = .next (s.afterPasses raws more []).pollPass := by
  rw [run_passes h hns hadc hun hturns, run_succ_of_next (step_of_polling (h.afterPasses raws more [.fg]) rfl)]
  rfl

/-! The last result -/

/-- The end at a stable pass (R113). -/
theorem run_poll_stable {init more : List Sample} {last : Sample} {s : State} (h : s.Polling)
    (hns : ∀ r ∈ init ++ [last], s.params.floatSentinel ≠ some r) (hadc : s.env.adc = init ++ last :: more)
    (hun : NeverStable s.abc.smoothed init)
    (hst : stableFlag (smoothStep last (filterRun s.abc.smoothed init)) (filterRun s.abc.smoothed init) = true)
    (hcal : s.abc.calibrated s.params.nSw = true) (hturns : s.turns = List.replicate init.length .fg ++ [.fg]) :
    core.run (init.length + 1) s = .next { s with
      turns := []
      abc := { s.abc with
        smoothed := filterRun s.abc.smoothed (init ++ [last]), smoothedPrev := filterRun s.abc.smoothed init
        stable := true, abcState := .ABC_IDLE }
      env := { s.env with adc := more }
      out := { s.out with responses := s.out.responses ++
        [idxWord (s.abc.classify s.params.nSw (filterRun s.abc.smoothed (init ++ [last]))).idx] } } := by
  obtain ⟨hinit, hlast⟩ := List.forall_mem_append.1 hns
  have hend : s.params.floatSentinel ≠ some last := hlast last List.mem_cons_self
  rw [run_passes_succ h hinit hadc hun hturns, filterRun_concat,
    pollPass_of_stable_calibrated (s := s.afterPasses init (last :: more) []) rfl hend hst hcal, afterPasses_classify,
    filter_of_stableFlag (a := (s.afterPasses init (last :: more) []).abc) hst]
  rfl

/-- The end at the sentinel (R116). -/
theorem run_poll_sentinel {raws more : List Sample} {sentinel : Sample} {s : State} (h : s.Polling)
    (hns : ∀ r ∈ raws, s.params.floatSentinel ≠ some r) (hadc : s.env.adc = raws ++ sentinel :: more)
    (hun : NeverStable s.abc.smoothed raws) (hs : s.params.floatSentinel = some sentinel)
    (hturns : s.turns = List.replicate raws.length .fg ++ [.fg]) :
    core.run (raws.length + 1) s = .next { s with
      turns := []
      abc := { s.abc with
        smoothed := filterRun s.abc.smoothed raws
        smoothedPrev := if raws = [] then s.abc.smoothedPrev else filterRun s.abc.smoothed raws.dropLast
        stable := if raws = [] then s.abc.stable else false, abcState := .ABC_IDLE }
      env := { s.env with adc := more }
      out := { s.out with responses := s.out.responses ++ [0xFFFF#16] } } := by
  rw [run_passes_succ h hns hadc hun hturns, pollPass_sentinel (s := s.afterPasses raws (sentinel :: more) []) rfl hs]
  rfl

/-- One more turn of the foreground, before or after the others. -/
theorem cons_replicate_fg (n : Nat) : Turn.fg :: List.replicate n .fg = List.replicate n .fg ++ [.fg] := by
  rw [← List.replicate_succ, List.replicate_succ']

/-- Settles O32: the passes before the last result, then the end it brings. -/
theorem pollRunsToItsStableEstimate : Obligations.PollRunsToItsStableEstimate := by
  intro s start raws more hstart hns hmay hhost hmicro
  have hpoll (ts : List Turn) : State.Polling { s.pollBegun start with turns := ts } := ⟨hmay, hhost, hmicro, rfl⟩
  refine ⟨fun hadc hst hcal hturns => ?_, fun sentinel hs hadc hun hturns => ?_⟩
  · obtain ⟨init, last, rfl, hinit, hlast⟩ := stabilisesOn_iff.1 hst
    have hlen : (init ++ [last]).length - 1 = init.length := by simp
    rw [hlen] at hturns ⊢
    rw [List.append_assoc, List.singleton_append] at hadc
    rw [andThen_abcPoll hstart (hpoll _), List.dropLast_concat,
      run_poll_stable (hpoll _) hns hadc hinit hlast hcal (hturns ▸ cons_replicate_fg _)]
    rfl
  · rw [andThen_abcPoll hstart (hpoll _),
      run_poll_sentinel (hpoll _) hns hadc hun hs (hturns ▸ cons_replicate_fg _)]
    rfl

end Sys2Proof.Machine
end

section
/-! PROOFS. O39 to O43 and O45: the operations of the port expander, one lemma for each micro-step of a handler and each form
of `px.take` (R142, R147 to R151, R153). -/

namespace Sys2Proof.Machine

/-! Bits of a port word -/

/-- Bit `p` of a port word, as a shift (R43). -/
theorem pinBit_eq_shift (p : Pin) : pinBit p = 1#16 <<< p.val := by revert p; decide

theorem setPin_eq_or (w : Word) (p : Pin) : setPin w p = w ||| 1#16 <<< p.val := by
  rw [setPin, pinBit_eq_shift]

theorem clearPin_eq_and (w : Word) (p : Pin) : clearPin w p = w &&& ~~~(1#16 <<< p.val) := by
  rw [clearPin, pinBit_eq_shift]

/-! `px.init` -/

/-- R142: the chip acknowledges. -/
theorem execPxInit_of_ack {c : Chip} {s : State} (h : s.env.ack[c] = true) : execPxInit c s =
    .next (s.setChip c { s.chip[c] with pxConfigured := true, pend := 0, irqLatch := false }) := if_pos h

/-- R142, R244: the chip does not acknowledge. -/
theorem execPxInit_of_silent {c : Chip} {s : State} (h : s.env.ack[c] = false) : execPxInit c s =
    .next ((s.setChip c { s.chip[c] with pxConfigured := false, pxInitFail := true }).emit (.INIT_FAIL c)) :=
  if_neg (Bool.eq_false_iff.1 h)

/-- Settles O39: the operation's two branches. -/
theorem pxInitArmsOrLogs : Obligations.PxInitArmsOrLogs := by
  intro c
  refine ⟨fun adcW => ?_, fun s hack => execPxInit_of_ack hack, fun s hack => execPxInit_of_silent hack⟩
  have hword : (encode (.pxInit c)).1 = 0x3000#16 ||| BitVec.ofNat 16 c.val := by revert c; decide
  exact hword ▸ encodedInstructionDecodesBack adcW (.pxInit c) rfl

/-! Which micro-step `px.isr` takes -/

section
variable {c : Chip} {s : State}

theorem exec_pxIsr_of_idle (h : s.chip[c].isrState = .IDLE) :
    exec (.pxIsr c) s = .next (if s.handlerEnabled c then s.enterHandler c else s) := by
  simp only [exec, execPxIsr, h]

theorem exec_pxIsr_of_fetch (h : s.chip[c].isrState = .FETCH) : exec (.pxIsr c) s = .next (s.isrFetch c) := by
  simp only [exec, execPxIsr, h]

theorem exec_pxIsr_of_read (h : s.chip[c].isrState = .READ) : exec (.pxIsr c) s = .next (s.isrRead c) := by
  simp only [exec, execPxIsr, h]

theorem exec_pxIsr_of_partner (h : s.chip[c].isrState = .PARTNER) : exec (.pxIsr c) s = s.isrPartner c := by
  simp only [exec, execPxIsr, h]

/-! `FETCH` -/

theorem isrFetch_of_none (h : s.chip[c].pend = 0) : s.isrFetch c = s.returnHandler c := by
  simp only [State.isrFetch, (reportedPin_eq_none _ _).2 h]

theorem isrFetch_of_reported {p : Pin} (h : reportedPin s.chip[c].pend s.report[c] = some p) : s.isrFetch c =
    s.setChip c { s.chip[c] with
      pend := s.chip[c].pend &&& ~~~(1#16 <<< p.val), curPin := p, isrState := .READ } := by
  simp only [State.isrFetch, h, clearPin_eq_and]

/-! `READ` -/

theorem isrRead_of_pressed {k : Button} (hk : s.params.pinMap.kind c s.chip[c].curPin = .SWITCH k)
    (hlv : s.pinLevel c s.chip[c].curPin = s.params.pressedLevel) :
    s.isrRead c = (s.setPending (buttonIdx k)).setChip c { s.chip[c] with isrState := .FETCH } := by
  simp only [State.isrRead, hk, if_pos hlv]

theorem isrRead_of_released {k : Button} (hk : s.params.pinMap.kind c s.chip[c].curPin = .SWITCH k)
    (hlv : s.pinLevel c s.chip[c].curPin ≠ s.params.pressedLevel) :
    s.isrRead c = s.setChip c { s.chip[c] with isrState := .FETCH } := by
  simp only [State.isrRead, hk, if_neg hlv]

theorem isrRead_of_contact (hk : s.params.pinMap.IsContact c s.chip[c].curPin) : s.isrRead c = s.setChip c
    { s.chip[c] with curLevel := s.pinLevel c s.chip[c].curPin, isrState := .PARTNER } := by
  obtain ⟨e, hk | hk⟩ := hk <;> simp only [State.isrRead, hk]

theorem isrRead_of_unused (hk : s.params.pinMap.kind c s.chip[c].curPin = .UNUSED) :
    s.isrRead c = s.setChip c { s.chip[c] with isrState := .FETCH } := by
  simp only [State.isrRead, hk]

/-! `PARTNER` -/

/-- R141: the other contact of the encoder is the partner of an `ENC_A` pin. -/
theorem partner_of_encA {m : PinMap} {n : Nat} (hw : m.Wf n) {p q : Pin} {e : EncId} (hp : m.kind c p = .ENC_A e)
    (hq : m.kind c q = .ENC_B e) : m.partner c p = some q := by
  obtain ⟨q', hq'⟩ := partner_of_contact hw (.inl hp)
  obtain ⟨e', he, hk⟩ | ⟨e', he, -⟩ := partner_eq_some hq' <;> cases hp.symm.trans he
  rw [hq', (contact_unique hw (.inr rfl) hq hk).2]

/-- R141: the other contact of the encoder is the partner of an `ENC_B` pin. -/
theorem partner_of_encB {m : PinMap} {n : Nat} (hw : m.Wf n) {p q : Pin} {e : EncId} (hp : m.kind c p = .ENC_B e)
    (hq : m.kind c q = .ENC_A e) : m.partner c p = some q := by
  obtain ⟨q', hq'⟩ := partner_of_contact hw (.inr hp)
  obtain ⟨e', he, -⟩ | ⟨e', he, hk⟩ := partner_eq_some hq' <;> cases hp.symm.trans he
  rw [hq', (contact_unique hw (.inl rfl) hq hk).2]

theorem isrPartner_of_encA {e : EncId} {q : Pin} (hk : s.params.pinMap.kind c s.chip[c].curPin = .ENC_A e)
    (hq : s.params.pinMap.partner c s.chip[c].curPin = some q) :
    s.isrPartner c = .next (s.feedDecoder c e s.chip[c].curLevel (s.pinLevel c q)) := by
  simp only [State.isrPartner, hk, hq]

theorem isrPartner_of_encB {e : EncId} {q : Pin} (hk : s.params.pinMap.kind c s.chip[c].curPin = .ENC_B e)
    (hq : s.params.pinMap.partner c s.chip[c].curPin = some q) :
    s.isrPartner c = .next (s.feedDecoder c e (s.pinLevel c q) s.chip[c].curLevel) := by
  simp only [State.isrPartner, hk, hq]

end

/-- R151: the two levels in the orientation of the wiring strap. -/
theorem wiredPair_eq (w : EncWiring) (la lb : Bool) :
    wiredPair w la lb = (if w = .NORMAL then la else lb, if w = .NORMAL then lb else la) := by
  cases w <;> rfl

theorem feedDecoder_eq (c : Chip) (e : EncId) (la lb : Bool) (s : State) : s.feedDecoder c e la lb =
    (s.updateEnc e (if s.straps.encWiring = .NORMAL then la else lb) (if s.straps.encWiring = .NORMAL then lb else la)).setChip
      c { s.chip[c] with isrState := .FETCH } := by
  simp only [State.feedDecoder, wiredPair_eq]

/-! The handler's obligations -/

/-- Settles O40: the four conditions, with the mode of the entry rule, enable the entry. -/
theorem handlerEntrySavesNothing : Obligations.HandlerEntrySavesNothing := by
  intro c s hidle hlatch hconf hirq hmode
  have hena : s.handlerEnabled c = true := (handlerEnabled_iff s c).2 ⟨hidle, hlatch, hconf, hirq, hmode⟩
  rw [exec_pxIsr_of_idle hidle, if_pos hena]
  rfl

/-- Settles O41: a chip with a pending pin reports one, and any of them when it starts its scan there. -/
theorem fetchTakesAnyPendingPin : Obligations.FetchTakesAnyPendingPin := by
  intro c s hfetch
  rw [exec_pxIsr_of_fetch hfetch]
  refine ⟨fun hnone => ?_, fun hsome => ?_, fun p hpend hstart => ?_⟩
  · rw [isrFetch_of_none hnone]
    rfl
  · obtain ⟨p, hp⟩ := Option.ne_none_iff_exists'.1 (mt (reportedPin_eq_none _ s.report[c]).1 hsome)
    exact ⟨p, reportedPin_pending hp, congrArg _ (isrFetch_of_reported hp)⟩
  · have hp : reportedPin s.chip[c].pend s.report[c] = some p := by rw [hstart]; exact reportedPin_start hpend
    exact congrArg _ (isrFetch_of_reported hp)

/-- Settles O42: `READ` by the kind of the pin and, for a switch, its level. -/
theorem readRoutesThePin : Obligations.ReadRoutesThePin := by
  intro c s hread
  rw [exec_pxIsr_of_read hread]
  exact ⟨fun k hk hlv => congrArg _ (isrRead_of_pressed hk hlv), fun k hk hlv => congrArg _ (isrRead_of_released hk hlv),
    fun e hk => congrArg _ (isrRead_of_contact ⟨e, hk⟩), fun hk => congrArg _ (isrRead_of_unused hk)⟩

/-- Settles O43: the partner that the pin map gives is the other contact, and `PARTNER` writes the decoder as `qdec.update`
does. -/
theorem partnerFeedsTheDecoder : Obligations.PartnerFeedsTheDecoder := by
  intro c s e q la lb hw hst hlevels
  have hfeed : s.isrPartner c = .next (s.feedDecoder c e la lb) := by
    obtain ⟨hk, hq, rfl, rfl⟩ | ⟨hk, hq, rfl, rfl⟩ := hlevels
    · exact isrPartner_of_encA hk (partner_of_encA hw hk hq)
    · exact isrPartner_of_encB hk (partner_of_encB hw hk hq)
  rw [exec_pxIsr_of_partner hst, hfeed, feedDecoder_eq]
  exact ⟨_, _, rfl, rfl, rfl⟩

/-! `px.take` -/

theorem execPxTake_masked {s : State} (h : s.sys.irqEnable = false) :
    execPxTake s = .next ((s.setPending Idx.NONE).respond (idxWord s.pendingButton)) := if_neg (Bool.eq_false_iff.1 h)

theorem execPxTake_unmasked {s : State} (h : s.sys.irqEnable = true) :
    execPxTake s = .next ((s.setSys { s.sys with fgTmp := tmpOfIdx s.pendingButton }).setMicro .takeClear) := if_pos h

theorem continueOperation_of_takeClear {s : State} (h : s.prog.micro = .takeClear) : s.continueOperation = s.takeFinish := by
  simp only [State.continueOperation, h]

/-- R153: the second micro-step returns the index that the first one kept. -/
theorem takeFinish_of_fgTmp {s : State} {k : Idx} (h : s.sys.fgTmp = tmpOfIdx k) :
    s.takeFinish = ((s.setPending Idx.NONE).respond (idxWord k)).setMicro .idle := by
  rw [State.takeFinish, h, idxOfTmp_tmpOfIdx]

/-- Settles O45: the two forms of the operation; the second micro-step is the foreground's step on an operation in
progress. -/
theorem pxTakeReadsAndClears : Obligations.PxTakeReadsAndClears := by
  refine ⟨fun adcW _ => encodedInstructionDecodesBack adcW .pxTake rfl, fun s => execPxTake_masked,
    fun s => execPxTake_unmasked, fun s k hn hmay hhost hmicro htmp => ?_⟩
  rw [step_of_inProgress hn hmay hhost (busy_of_micro (by rw [hmicro]; decide)),
    continueOperation_of_takeClear (s := s.popTurn) hmicro, takeFinish_of_fgTmp (s := s.popTurn) htmp]
  rfl

end Sys2Proof.Machine
end

section
/-! PROOFS. O9: the change detector in a pin step of the environment (R143). -/

namespace Sys2Proof.Machine

theorem level_set_self (v : Vector Word Config.nChip) (c : Chip) (w : Word) : (v.set c w)[c] = w := by simp

theorem level_set_ne (v : Vector Word Config.nChip) {c d : Chip} (h : d ≠ c) (w : Word) : (v.set c w)[d] = v[d] := by
  simp [Fin.val_ne_of_ne h.symm]

/-! One chip -/

theorem detectChange_of_unconfigured {r : ChipRegs} (h : r.pxConfigured = false) (p : Pin) : r.detectChange p = r :=
  if_neg (Bool.eq_false_iff.1 h)

theorem detectChange_of_configured {r : ChipRegs} (h : r.pxConfigured = true) (p : Pin) :
    r.detectChange p = { r with pend := setPin r.pend p, irqLatch := r.irqLatch || r.pend == 0 } := if_pos h

/-- The latch after a change is set when nothing was pending, and kept else (R143). -/
theorem latch_of_change (pend : Word) (latch : Bool) : (latch || pend == 0) = if pend = 0#16 then true else latch := by
  by_cases h : pend = 0#16 <;> simp [h]

/-! The pin step -/

section
variable {c : Chip} {p : Pin} {v : Bool} {s : State}

theorem envPin_of_same (h : s.pinLevel c p = v) : s.envPin c p v = s := if_pos h

theorem envPin_of_change (h : s.pinLevel c p ≠ v) : s.envPin c p v =
    (s.setEnv { s.env with level := s.env.level.set c (writePin s.env.level[c] p v) }).setChip c
      (s.chip[c].detectChange p) := if_neg h

/-- R54: the step sets the level of its pin and no other. -/
theorem envPin_pinLevel (c' : Chip) (p' : Pin) :
    (s.envPin c p v).pinLevel c' p' = if c' = c ∧ p' = p then v else s.pinLevel c' p' := by
  by_cases h : s.pinLevel c p = v
  · rw [envPin_of_same h]
    split
    · rename_i hpin
      obtain ⟨rfl, rfl⟩ := hpin
      exact h
    · rfl
  · rw [envPin_of_change h]
    simp only [State.pinLevel, State.setChip_env, State.setEnv_env]
    by_cases hc : c' = c
    · subst hc
      simp only [level_set_self, readPin_writePin, true_and]
    · simp only [level_set_ne _ hc, hc, false_and, if_false]

/-- R143: the registers of the pin's chip are the change detector's. -/
theorem envPin_chip_self :
    (s.envPin c p v).chip[c] = if s.pinLevel c p = v then s.chip[c] else s.chip[c].detectChange p := by
  by_cases h : s.pinLevel c p = v
  · rw [envPin_of_same h, if_pos h]
  · rw [envPin_of_change h, if_neg h, State.setChip_chip, chip_set_self]

theorem envPin_chip_ne {d : Chip} (hd : d ≠ c) : (s.envPin c p v).chip[d] = s.chip[d] := by
  by_cases h : s.pinLevel c p = v
  · rw [envPin_of_same h]
  · rw [envPin_of_change h]
    exact chip_set_ne _ hd _

/-- R54, R143: a pin step writes levels and registers of chips, and nothing else. -/
theorem envPin_frame : s.envPin c p v =
    { s with chip := (s.envPin c p v).chip, env := { s.env with level := (s.envPin c p v).env.level } } := by
  by_cases h : s.pinLevel c p = v
  · rw [envPin_of_same h]
  · rw [envPin_of_change h]
    rfl

end

/-- Settles O9: the levels, the two chips and the frame of the pin step. -/
theorem pinChangeIsDetected : Obligations.PinChangeIsDetected := by
  intro s c p v hn
  refine ⟨s.popTurn.envPin c p v, step_of_env hn, envPin_pinLevel, fun d hd => envPin_chip_ne hd, fun hsame => ?_,
    fun ⟨hchange, hconf⟩ => ?_, envPin_frame⟩
  · rw [envPin_chip_self, State.popTurn_chip]
    split
    · rfl
    · exact detectChange_of_unconfigured (hsame.resolve_left ‹_›) p
  · have hne : s.popTurn.pinLevel c p ≠ v := hchange
    rw [envPin_chip_self, if_neg hne, State.popTurn_chip, detectChange_of_configured hconf, setPin_eq_or, latch_of_change]

end Sys2Proof.Machine
end

section
/-! PROOFS. O46 and O12: what any step does to the registers of a chip is said once, as the changes that the rules name; each
invariant is then a matter of the changes alone. For O12 also that no agent's step stops. -/

namespace Sys2Proof.Machine

/-- What one step does to the registers of chip `c`. -/
inductive ChipRegs.Change (m : PinMap) (c : Chip) : ChipRegs → ChipRegs → Prop
  | kept (r : ChipRegs) : Change m c r r
  /-- `px.init` of a chip that acknowledges (R142) -/
  | armed (r : ChipRegs) : Change m c r { r with pxConfigured := true, pend := 0, irqLatch := false }
  /-- `px.init` of a silent chip (R142, R244) -/
  | initFailed (r : ChipRegs) : Change m c r { r with pxConfigured := false, pxInitFail := true }
  /-- a pin step of the environment (R143) -/
  | detected (r : ChipRegs) (p : Pin) : Change m c r (r.detectChange p)
  /-- a micro-step of the chip's handler (R147 to R151) -/
  | handled {start : Pin} {r r' : ChipRegs} : ChipRegs.Move m c start r r' → Change m c r r'
  /-- reset (R270) -/
  | reset (r : ChipRegs) : Change m c r ChipRegs.reset

theorem change_of_eq {m : PinMap} {c : Chip} {r r' : ChipRegs} (h : r' = r) : ChipRegs.Change m c r r' := by
  rw [h]
  exact .kept r

/-- A write to one chip is a change of every chip, the others being kept. -/
theorem change_of_set {m : PinMap} {c : Chip} {v : Vector ChipRegs Config.nChip} {r : ChipRegs}
    (h : ChipRegs.Change m c v[c] r) (d : Chip) : ChipRegs.Change m d v[d] (v.set c r)[d] := by
  by_cases hd : d = c
  · rw [hd, chip_set_self]
    exact h
  · exact change_of_eq (chip_set_ne v hd r)

/-! The agents' steps -/

theorem execPxInit_change (m : PinMap) {c : Chip} {s t : State} (h : execPxInit c s = .next t) (d : Chip) :
    ChipRegs.Change m d s.chip[d] t.chip[d] := by
  cases hack : s.env.ack[c] with
  | true =>
    rw [execPxInit_of_ack hack] at h
    cases h
    exact change_of_set (.armed _) d
  | false =>
    rw [execPxInit_of_silent hack] at h
    cases h
    exact change_of_set (.initFailed _) d

theorem exec_change (m : PinMap) {i : Instr} {s t : State} (hisr : ∀ c, i ≠ .pxIsr c) (h : exec i s = .next t) (d : Chip) :
    ChipRegs.Change m d s.chip[d] t.chip[d] := by
  by_cases hinit : ∃ c, i = .pxInit c
  · obtain ⟨c, rfl⟩ := hinit
    exact execPxInit_change m h d
  · exact change_of_eq (by rw [exec_chip (not_exists.1 hinit) hisr h])

theorem issue_change (m : PinMap) {q : Request} {s t : State} (hq : NoIsr q) (h : s.issue q = .next t) (d : Chip) :
    ChipRegs.Change m d s.chip[d] t.chip[d] := by
  obtain ⟨i, u, rfl, hu, rfl⟩ | ⟨k, -, rfl⟩ | ⟨-, rfl⟩ := issue_cases h
  · rw [afterOperation_chip]
    exact exec_change m (fun c hi => hq c (hi ▸ rfl)) hu d
  · rw [afterOperation_chip, pressUnlisted_chip]
    exact .kept _
  · exact .kept _

theorem foregroundStep_change (m : PinMap) {s t : State} (h : s.foregroundStep = .next t) (d : Chip) :
    ChipRegs.Change m d s.chip[d] t.chip[d] := by
  obtain rfl | ⟨-, -, rfl⟩ | ⟨-, -, -, w, e, rest, -, hq⟩ | ⟨-, -, -, q, hs, hq⟩ | ⟨-, -, -, -, rfl⟩ :=
    foregroundStep_cases h
  · exact .kept _
  · rw [afterOperation_chip, continueOperation_chip]
    exact .kept _
  · exact issue_change m (noIsr_commandRequest _ w e) hq d
  · exact issue_change m (noIsr_sequencerRequest hs) hq d
  · rw [phaseEnd_chip]
    exact .kept _

theorem handlerStep_change {c : Chip} {p : Pin} {s t : State} (h : s.handlerStep c p = .next t) (d : Chip) :
    ChipRegs.Change s.params.pinMap d s.chip[d] t.chip[d] := by
  obtain rfl | ⟨-, out, hm⟩ := handlerStep_moves h
  · exact .kept _
  · by_cases hd : d = c
    · subst hd
      have hmove := handlerMoves_chip_self hm
      exact .handled hmove
    · have hkept := handlerMoves_chip_ne hd hm
      exact change_of_eq hkept

theorem envStep_change (m : PinMap) (e : EnvStep) (s : State) (d : Chip) :
    ChipRegs.Change m d s.chip[d] (s.envStep e).chip[d] := by
  cases e with
  | pin c p v =>
    change ChipRegs.Change m d s.chip[d] (s.envPin c p v).chip[d]
    by_cases h : s.pinLevel c p = v
    · rw [envPin_of_same h]
      exact .kept _
    · rw [envPin_of_change h]
      exact change_of_set (.detected _ p) d
  | reset =>
    have hreset : (s.envStep .reset).chip[d] = ChipRegs.reset := atReset_chip s.params s.env d
    rw [hreset]
    exact .reset _
  | adc | ack | menufn | cal | wiggle | command | straps => exact .kept _

/-- Every step changes the registers of each chip in one of the named ways. -/
theorem step_change {s t : State} (h : step s = .next t) (d : Chip) :
    ChipRegs.Change s.params.pinMap d s.chip[d] t.chip[d] := by
  obtain ⟨-, hf⟩ | ⟨c, p, -, hi⟩ | ⟨e, -, rfl⟩ := step_cases h
  · exact foregroundStep_change _ hf d
  · exact handlerStep_change hi d
  · exact envStep_change _ e s.popTurn d

/-! Pending changes -/

/-- `State.ChangesLatched` of one chip (R143, R144). -/
def ChipRegs.ChangesLatched (r : ChipRegs) : Prop := r.isrState = .IDLE → r.pend ≠ 0 → r.irqLatch = true

/-- R143: the first pending change sets the latch, and a later one finds it as it was. -/
theorem detectChange_changesLatched {r : ChipRegs} (h : r.ChangesLatched) (p : Pin) : (r.detectChange p).ChangesLatched := by
  cases hconf : r.pxConfigured with
  | false => rwa [detectChange_of_unconfigured hconf]
  | true =>
    rw [detectChange_of_configured hconf]
    intro hidle _
    by_cases hpend : r.pend = 0
    · simp [hpend]
    · simp [h hidle hpend]

/-- R148: a handler becomes idle only where nothing is pending. -/
theorem move_changesLatched {m : PinMap} {c : Chip} {start : Pin} {r r' : ChipRegs} (h : ChipRegs.Move m c start r r') :
    r'.ChangesLatched := by
  intro hidle hpend
  cases h with
  | leave _ hzero => exact absurd hzero hpend
  | enter | fetch | served | contact | feed => cases hidle

theorem change_changesLatched {m : PinMap} {c : Chip} {r r' : ChipRegs} (h : ChipRegs.Change m c r r')
    (hr : r.ChangesLatched) : r'.ChangesLatched := by
  cases h with
  | kept => exact hr
  | armed => exact fun _ hpend => absurd rfl hpend
  | initFailed => exact hr
  | detected => exact detectChange_changesLatched hr _
  | handled hm => exact move_changesLatched hm
  | reset => exact fun _ hpend => absurd rfl hpend

/-- Settles O46: each of the changes that a step makes to a chip keeps a pending change latched. -/
theorem pendingChangesStayLatched : Obligations.PendingChangesStayLatched :=
  fun _ _ hs h c => change_changesLatched (step_change h c) (hs c)

/-! Encoder contacts -/

/-- The part of `State.PartnerReady` that is about the registers of chip `c` (R149). -/
def ChipRegs.PartnerReady (m : PinMap) (c : Chip) (r : ChipRegs) : Prop :=
  r.isrState = .PARTNER → m.IsContact c r.curPin

theorem partnerReady_iff (s : State) : s.PartnerReady ↔
    s.params.pinMap.Wf s.params.nSw ∧ ∀ c : Chip, s.chip[c].PartnerReady s.params.pinMap c := Iff.rfl

/-- R149: a handler enters `PARTNER` only from `READ`, for an encoder contact. -/
theorem move_partnerReady {m : PinMap} {c : Chip} {start : Pin} {r r' : ChipRegs} (h : ChipRegs.Move m c start r r') :
    r'.PartnerReady m c := by
  intro hpartner
  cases h with
  | contact _ _ hc => exact hc
  | enter | leave | fetch | served | feed => cases hpartner

theorem detectChange_curPin (r : ChipRegs) (p : Pin) : (r.detectChange p).curPin = r.curPin := by
  unfold ChipRegs.detectChange; split <;> rfl

theorem change_partnerReady {m : PinMap} {c : Chip} {r r' : ChipRegs} (h : ChipRegs.Change m c r r')
    (hr : r.PartnerReady m c) : r'.PartnerReady m c := by
  cases h with
  | kept | armed | initFailed => exact hr
  | detected =>
    unfold ChipRegs.PartnerReady
    rwa [detectChange_isrState, detectChange_curPin]
  | handled hm => exact move_partnerReady hm
  | reset => exact nofun

theorem step_keeps_partnerReady {s t : State} (hs : s.PartnerReady) (h : step s = .next t) : t.PartnerReady := by
  obtain ⟨hw, hc⟩ := (partnerReady_iff s).1 hs
  have hp : t.params = s.params := (parametersAndStrapsAreConstant s t h).1
  rw [partnerReady_iff, hp]
  exact ⟨hw, fun c => change_partnerReady (step_change h c) (hc c)⟩

/-! No step stops -/

/-- Every operation of the foreground completes its step, in any state. -/
theorem exec_goesOn {i : Instr} (hisr : ∀ c, i ≠ .pxIsr c) (s : State) : GoesOn (exec i s) := by
  cases i with
  | pxIsr c => exact absurd rfl (hisr c)
  | qdecProcess e =>
    change GoesOn (execQdecProcess e s)
    unfold execQdecProcess; split <;> exact ⟨_, rfl⟩
  | abcClassify v =>
    change GoesOn (execAbcClassify v s)
    unfold execAbcClassify; split <;> exact ⟨_, rfl⟩
  | abcCalload j v =>
    change GoesOn (execAbcCalload j v s)
    unfold execAbcCalload
    split
    · split <;> exact ⟨_, rfl⟩
    · exact ⟨_, rfl⟩
  | abcWrload v =>
    change GoesOn (execAbcWrload v s)
    unfold execAbcWrload; split <;> exact ⟨_, rfl⟩
  | pxInit c =>
    change GoesOn (execPxInit c s)
    unfold execPxInit; split <;> exact ⟨_, rfl⟩
  | pxTake =>
    change GoesOn (execPxTake s)
    unfold execPxTake; split <;> exact ⟨_, rfl⟩
  | menuFlowkey k =>
    change GoesOn (execMenuFlowkey k s)
    unfold execMenuFlowkey
    split
    · split <;> exact ⟨_, rfl⟩
    · exact ⟨_, rfl⟩
  | cli | sei | qdecUpdate | abcPoll | abcSample | abcSettle | menuPress0 | menuPress1 | menuPress2 | menuPress3 | menuPress4
  | menuPress5 | menuPress6 | menuPress7 | menuPress8 | menuPress9 | menuPress10 | menuPress11 | menuPress12 | menuPress13
  | menuPress14 | menuPress15 | menuPress16 | menuPress17 => exact ⟨_, rfl⟩

theorem issue_goesOn {q : Request} (hq : NoIsr q) (s : State) : GoesOn (s.issue q) := by
  cases q with
  | op i =>
    obtain ⟨t, ht⟩ := exec_goesOn (fun c hi => hq c (hi ▸ rfl)) (s.pushTrace (encode i).1)
    exact ⟨t.afterOperation, by simp only [State.issue, State.startOperation, ht]⟩
  | pressUnlisted k => exact ⟨_, rfl⟩
  | reserved => exact ⟨_, rfl⟩

theorem foregroundStep_goesOn (s : State) : GoesOn s.foregroundStep := by
  unfold State.foregroundStep
  split
  · split
    · exact ⟨_, rfl⟩
    · split
      · split
        · exact ⟨_, rfl⟩
        · exact issue_goesOn (noIsr_commandRequest _ _ _) _
      · split
        · exact issue_goesOn (noIsr_sequencerRequest ‹_›) s
        · exact ⟨_, rfl⟩
  · exact ⟨_, rfl⟩

theorem handlerStep_goesOn {s : State} (hs : s.PartnerReady) (c : Chip) (p : Pin) : GoesOn (s.handlerStep c p) := by
  obtain ⟨hw, hc⟩ := (partnerReady_iff s).1 hs
  unfold State.handlerStep
  split
  · exact execPxIsr_goesOn (s := s.setReport c p) hw (hc c)
  · split
    · exact execPxIsr_goesOn (s := (s.setReport c p).pushTrace _) hw (hc c)
    · exact ⟨_, rfl⟩

theorem step_goesOn {s : State} (hs : s.PartnerReady) : GoesOn (step s) := by
  cases hn : s.nextTurn with
  | fg =>
    rw [step_of_fg hn]
    exact foregroundStep_goesOn _
  | isr c p =>
    rw [step_of_isr hn]
    exact handlerStep_goesOn (s := s.popTurn) hs c p
  | env e => exact ⟨_, step_of_env hn⟩

/-- Settles O12: no agent's step stops, and a handler enters `PARTNER` for an encoder contact only. -/
theorem everyStepGoesOn : Obligations.EveryStepGoesOn := by
  intro s hs
  obtain ⟨t, ht⟩ := step_goesOn hs
  exact ⟨t, ht, step_keeps_partnerReady hs ht⟩

end Sys2Proof.Machine
end

section
/-! PROOFS. O47 to O54: `menu.press` and `menu.flowkey` (R183 to R206). Which press is dispatched, and what the promotion
before it does (R185), are said once; each statement is then the rule of one action. -/

namespace Sys2Proof.Machine

/-! The command words (R60, R73, R75) -/

/-- An operand narrower than `ARG` fills the lower bits of a word whose `ARG` is 0. -/
theorem wordOf_eq_or {n u o : Nat} (hu : u < 16) (ho : o < 16) (hn : n ≤ 8) (v : BitVec n) :
    wordOf u o v.toNat = wordOf u o 0 ||| v.setWidth 16 := by
  have hv : v.toNat < 2 ^ 8 := v.isLt.trans_le (Nat.pow_le_pow_right (by decide) hn)
  have hor := Nat.two_pow_add_eq_or_of_lt hv (u * 16 + o)
  apply BitVec.eq_of_toNat_eq
  rw [Laws.toNat_wordOf hu ho hv, BitVec.toNat_or, Laws.toNat_wordOf hu ho (by decide), BitVec.toNat_setWidth,
    Nat.mod_eq_of_lt (hv.trans (by decide)), show u * 4096 + o * 256 + 0 = 2 ^ 8 * (u * 16 + o) by omega, ← hor]
  omega

/-- The decoder reads a word of `menu.press` by its index alone. -/
theorem decode_wordOf_press {k : Nat} (hk : k < 256) (adcW : Nat) (d : Word) :
    decode adcW (wordOf 4 0 k) d = formatPress (wordOf 4 0 k) := by
  simp only [decode, Laws.unitField_wordOf (u := 4) (o := 0) (by decide) (by decide) hk,
    Laws.opField_wordOf (u := 4) (o := 0) (by decide) (by decide) hk]

theorem pressOf_eq_none {k : Nat} (hk : 18 ≤ k) : pressOf k = none := by
  unfold pressOf
  split
  case h_19 => rfl
  all_goals omega

theorem pressOf_lt {k : Nat} {i : Instr} (h : pressOf k = some i) : k < 18 := by
  by_contra hk
  rw [pressOf_eq_none (not_lt.1 hk)] at h
  cases h

theorem decode_press {k : Nat} {i : Instr} (h : pressOf k = some i) (adcW : Nat) (d : Word) :
    decode adcW (wordOf 4 0 k) d = .ok i := by
  have hk : k < 256 := (pressOf_lt h).trans (by decide)
  rw [decode_wordOf_press hk, formatPress, Laws.argField_wordOf (by decide) (by decide) hk, h]

/-- R75, R183: an index without a row is asked of the menu unit. -/
theorem commandRequest_pressUnlisted {k : Idx} (hk : 18 ≤ k.toNat) (adcW : Nat) (d : Word) :
    commandRequest adcW (pressWord k) d = .pressUnlisted k := by
  have harg : argField (wordOf 4 0 k.toNat) = k.toNat := Laws.argField_wordOf (by decide) (by decide) k.isLt
  have hdec : decode adcW (pressWord k) d = .error (.pressUnlisted k) := by
    rw [pressWord, decode_wordOf_press k.isLt, formatPress, harg, pressOf_eq_none hk, argIdx, harg, BitVec.ofNat_toNat,
      BitVec.setWidth_eq]
  rw [commandRequest, hdec]

/-! Which press is dispatched (R183 to R186) -/

/-- `menu.press k` is in its contract (R183) and is not the select with no menu active (R184). -/
structure State.Dispatches (s : State) (k : Button) : Prop where
  inRange : k.val < s.params.nSw
  noFlow : s.menu.flowActive = false
  notIdleSelect : s.menu.menuStatus = .noMenusActive → k ≠ s.params.selectIndex

theorem dispatches_of_active {s : State} {k : Button} (hk : k.val < s.params.nSw) (hflow : s.menu.flowActive = false)
    (h : s.menu.menuStatus ≠ .noMenusActive) : s.Dispatches k :=
  ⟨hk, hflow, fun h' => absurd h' h⟩

theorem not_refused {s : State} {k : Button} (hk : k.val < s.params.nSw) (hflow : s.menu.flowActive = false) :
    ¬(s.menu.flowActive = true ∨ s.params.nSw ≤ k.val) := by
  simp [hk, hflow]

theorem menuPress_of_dispatches {s : State} {k : Button} (h : s.Dispatches k) :
    s.menuPress k = s.promote.runAction s.params.actionMap[k] := by
  obtain ⟨hk, hflow, hsel⟩ := h
  obtain ⟨hout, -⟩ | ⟨-, -, hkey, hst, -⟩ | ⟨-, -, -, hrun⟩ := menuPress_cases k s
  · exact absurd hout (not_refused hk hflow)
  · exact absurd hkey (hsel hst)
  · exact hrun

theorem exec_press {k : Button} {i : Instr} (h : pressOf k.val = some i) (s : State) :
    exec i s = .next (s.menuPress k) := by
  obtain ⟨_, hexec⟩ := exec_pressOf h
  exact hexec s

/-- R185, R186: the rule of the action that the map gives the index, after the promotion. -/
theorem exec_press_of_dispatches {s : State} {k : Button} {i : Instr} {a : Action} (hi : pressOf k.val = some i)
    (h : s.Dispatches k) (ha : s.params.actionMap[k] = a) : exec i s = .next (s.promote.runAction a) := by
  rw [exec_press hi, menuPress_of_dispatches h, ha]

/-! The promotion (R185) -/

/-- What the promotion writes: the menu state, and what it shows. -/
theorem promote_writes (s : State) : ∃ (st : MenuStatus) (shown : List Event),
    (s.menu.menuStatus = .noMenusActive →
      st = .primaryMenuActive ∧ shown = [.SHOW_MENU s.menu.mainMenuIndex .primaryMenuActive]) ∧
    (s.menu.menuStatus ≠ .noMenusActive → st = s.menu.menuStatus ∧ shown = []) ∧
    s.promote = { s with
      menu := { s.menu with menuStatus := st }
      out := { s.out with events := s.out.events ++ shown } } := by
  by_cases h : s.menu.menuStatus = .noMenusActive
  · exact ⟨_, _, fun _ => ⟨rfl, rfl⟩, fun hne => absurd h hne, promote_of_inactive h⟩
  · exact ⟨_, _, fun h' => absurd h' h, fun _ => ⟨rfl, rfl⟩, by rw [promote_of_active h, List.append_nil]⟩

theorem promote_straps (s : State) : s.promote.straps = s.straps := (config_eq_iff.1 (promote_config s)).2

/-- One event after the promotion of an inactive menu. -/
theorem emit_promote_of_inactive {s : State} (h : s.menu.menuStatus = .noMenusActive) (x : Event) :
    s.promote.emit x = { s with
      menu := { s.menu with menuStatus := .primaryMenuActive }
      out := { s.out with events := s.out.events ++ [.SHOW_MENU s.menu.mainMenuIndex .primaryMenuActive, x] } } := by
  rw [promote_of_inactive h, List.append_cons]
  rfl

/-! The direct actions (R186, R191 to R204) -/

/-- The actions that are one event to a collaborator: all but the four with a rule of their own (R187 to R190, R205). -/
abbrev Action.Direct (a : Action) : Prop := a ∉ [Action.SELECT, .MENU_UP, .MENU_DOWN, .MAP_FLOW]

theorem menuPress_of_direct {s : State} {k : Button} {a : Action} (h : s.Dispatches k) (ha : s.params.actionMap[k] = a)
    (hdir : a.Direct) : s.menuPress k = s.promote.emit (.ACTION a.id) := by
  rw [menuPress_of_dispatches h, ha]
  exact runAction_direct (by simpa [Action.Direct] using hdir) _

section
variable {s : State} {k : Button} {a : Action} (hk : k.val < s.params.nSw) (hflow : s.menu.flowActive = false)
  (ha : s.params.actionMap[k] = a) (hdir : a.Direct)
include hk hflow ha hdir

theorem menuPress_direct_of_inactive (h : s.menu.menuStatus = .noMenusActive) (hsel : k ≠ s.params.selectIndex) :
    s.menuPress k = { s with
      menu := { s.menu with menuStatus := .primaryMenuActive }
      out := { s.out with
        events := s.out.events ++ [.SHOW_MENU s.menu.mainMenuIndex .primaryMenuActive, .ACTION a.id] } } := by
  rw [menuPress_of_direct ⟨hk, hflow, fun _ => hsel⟩ ha hdir, emit_promote_of_inactive h]

theorem menuPress_direct_of_active (h : s.menu.menuStatus ≠ .noMenusActive) :
    s.menuPress k = s.emit (.ACTION a.id) := by
  rw [menuPress_of_direct (dispatches_of_active hk hflow h) ha hdir, promote_of_active h]

end

/-- With the host driving, an accepted `menu.press` word without a row is its press, with the word on the trace port (R81). -/
theorem step_of_accepting_unlisted {s : State} {k : Button} {d : Word} (hk : 18 ≤ k.val)
    (h : s.Accepting (BitVec.ofNat 16 (0x4000 + k.val)) d) :
    step s = .next ((s.accepted.pushTrace (pressWord (buttonIdx k))).menuPress k) := by
  have hidx : (buttonIdx k).toNat = k.val := Nat.mod_eq_of_lt (k.isLt.trans (by decide))
  have hword : BitVec.ofNat 16 (0x4000 + k.val) = pressWord (buttonIdx k) := by rw [pressWord, hidx, wordOf]
  have hpress (t : State) : t.pressUnlisted (buttonIdx k) = t.menuPress k := by
    rw [State.pressUnlisted, dif_pos (hidx ▸ k.isLt)]
    exact congrArg t.menuPress (Fin.ext hidx)
  rw [step_of_accepting h, hword, commandRequest_pressUnlisted (hidx ▸ hk), State.issue, hpress, afterOperation_of_host]
  have hhost := accepted_seqEn h
  rw [(config_eq_iff.1 (menuPress_config k _)).2]
  exact hhost

/-- Settles O48: a press in the table by its dispatch; a press without a row is the same dispatch at the accepted state. -/
theorem pressFollowsTheActionMap : Obligations.PressFollowsTheActionMap := by
  constructor
  · intro k i a s hi hk ha hdir hflow
    rw [exec_press hi]
    refine ⟨fun hst hsel => ?_, fun hst => ?_⟩
    · rw [menuPress_direct_of_inactive hk hflow ha hdir hst hsel]
    · rw [menuPress_direct_of_active hk hflow ha hdir hst]
      rfl
  · intro k a s d h18 hk ha hdir hflow hacc
    rw [step_of_accepting_unlisted h18 hacc]
    refine ⟨s.out.trace ++ [pressWord (buttonIdx k)], fun hst hsel => ?_, fun hst => ?_⟩
    · rw [menuPress_direct_of_inactive (s := s.accepted.pushTrace _) hk hflow ha hdir hst hsel]
      rfl
    · rw [menuPress_direct_of_active (s := s.accepted.pushTrace _) hk hflow ha hdir hst]
      rfl

/-- The instructions of the direct actions in the default `ACTION_MAP`, with the action identifiers (R182). -/
def directPresses : List (Instr × BitVec 5) :=
  [(.menuPress2, 2), (.menuPress3, 3), (.menuPress5, 5), (.menuPress6, 6), (.menuPress7, 7), (.menuPress8, 8),
    (.menuPress9, 9), (.menuPress10, 10), (.menuPress11, 11), (.menuPress12, 12), (.menuPress13, 13), (.menuPress14, 14),
    (.menuPress15, 15), (.menuPress16, 16)]

/-- R182: the default map is the identity on their indices. -/
theorem directPresses_spec : ∀ x ∈ directPresses, pressOf x.2.toNat = some x.1 ∧
    (defaultActionMap[x.2.toFin]).Direct ∧ (defaultActionMap[x.2.toFin]).id = x.2 ∧ x.2.toFin ≠ 0 := by decide

/-- Settles O47: O48 for the default map. -/
theorem directActionsPromoteAndCall : Obligations.DirectActionsPromoteAndCall := by
  intro i a s hmem hmap hselect hk hflow
  obtain ⟨hi, hdir, hid, hne⟩ := directPresses_spec (i, a) hmem
  obtain ⟨hpress, -⟩ := pressFollowsTheActionMap
  obtain ⟨hinactive, hactive⟩ := hpress a.toFin i _ s hi hk rfl (by rwa [hmap]) hflow
  rw [hmap, hid] at hinactive hactive
  refine ⟨fun adcW d => ?_, fun hst => hinactive hst (by rwa [hselect]), hactive⟩
  have hword : wordOf 4 0 a.toNat = 0x4000#16 ||| a.setWidth 16 := wordOf_eq_or (by decide) (by decide) (by decide) a
  exact hword ▸ decode_press hi adcW d

/-! Select (R184, R187, R188) -/

/-- Settles O49: the test before the promotion. -/
theorem selectWithoutMenuIsNoticed : Obligations.SelectWithoutMenuIsNoticed := by
  refine ⟨fun adcW d => decode_press (k := 0) rfl adcW d, rfl, fun k i s hi hk hsel hflow hst => ?_⟩
  obtain ⟨hout, -⟩ | ⟨-, -, -, -, hnotice⟩ | ⟨-, -, hne, -⟩ := menuPress_cases k s
  · exact absurd hout (not_refused hk hflow)
  · rw [exec_press hi, hnotice]
    rfl
  · exact absurd ⟨hsel.symm, hst⟩ hne

theorem select_of_primary {s : State} (h : s.menu.menuStatus = .primaryMenuActive) : s.select = s.selectPrimary := by
  simp only [State.select, h]

theorem select_of_secondary {s : State} (h : s.menu.menuStatus = .secondaryMenuActive) : s.select = s.selectSecondary := by
  simp only [State.select, h]

/-- R80, R209: no return value is there. -/
theorem menuReturn_nil {s : State} (h : s.env.ret = []) : s.menuReturn = s.setMicro .menuWait := by
  simp only [State.menuReturn, h]

/-- R187: the return value is taken and stored. -/
theorem menuReturn_cons {s : State} {r : Idx} {rest : List Idx} (h : s.env.ret = r :: rest) :
    s.menuReturn = ((s.setEnv { s.env with ret := rest }).menuReturned r).setMicro .idle := by
  simp only [State.menuReturn, h, State.dropRet, List.tail_cons]

theorem continueOperation_of_menuWait {s : State} (h : s.prog.micro = .menuWait) : s.continueOperation = s.menuReturn := by
  simp only [State.continueOperation, h]

/-- Select with a menu active is its rule: there is nothing to promote. -/
theorem exec_select_of_active {s : State} {k : Button} {i : Instr} (hi : pressOf k.val = some i) (hk : k.val < s.params.nSw)
    (ha : s.params.actionMap[k] = .SELECT) (hflow : s.menu.flowActive = false) (hst : s.menu.menuStatus ≠ .noMenusActive) :
    exec i s = .next s.select := by
  rw [exec_press_of_dispatches hi (dispatches_of_active hk hflow hst) ha, promote_of_active hst]
  rfl

/-- Settles O50: the call, then the return value that is there or the wait, which goes on in the foreground's step. -/
theorem selectCallsTheMenuFunction : Obligations.SelectCallsTheMenuFunction := by
  refine ⟨fun k i s r rest hi hk ha hflow hst hret => ?_, fun k i s hi hk ha hflow hst hret => ?_,
    fun s r rest hn hmay hhost hmicro hret => ?_⟩
  · rw [exec_select_of_active hi hk ha hflow (by rw [hst]; decide), select_of_primary hst, State.selectPrimary,
      menuReturn_cons (s := s.emit _) hret, List.append_cons]
    rfl
  · rw [exec_select_of_active hi hk ha hflow (by rw [hst]; decide), select_of_primary hst, State.selectPrimary,
      menuReturn_nil (s := s.emit _) hret]
    rfl
  · rw [step_of_inProgress hn hmay hhost (busy_of_micro (by rw [hmicro]; decide)),
      continueOperation_of_menuWait (s := s.popTurn) hmicro, menuReturn_cons (s := s.popTurn) hret]
    rfl

/-- Settles O51: the other branch of select. -/
theorem selectCollapsesTheSecondaryMenu : Obligations.SelectCollapsesTheSecondaryMenu := by
  refine ⟨fun adcW d => decode_press (k := 0) rfl adcW d, rfl, rfl, fun k i s hi hk ha hflow hst => ?_⟩
  rw [exec_select_of_active hi hk ha hflow (by rw [hst]; decide), select_of_secondary hst]
  rfl

/-! Menu up and menu down (R189, R190) -/

theorem navigate_of_active {s : State} (h : s.menu.menuStatus ≠ .noMenusActive) (m : Idx) :
    s.navigate m = (s.setMenu { s.menu with mainMenuIndex := m }).showMenu := if_neg h

section
variable {n : Nat} (hn : n ≤ 127) {m : Idx} (hm : 0 ≤ m.toInt ∧ m.toInt < n)

theorem toInt_menuUp_of_last (h : m.toInt = n - 1) : (menuUp n m).toInt = 0 := by
  rw [menuUp, if_pos h]
  rfl

include hn hm in
theorem toInt_menuUp_of_ne_last (h : m.toInt ≠ n - 1) : (menuUp n m).toInt = m.toInt + 1 := by
  rw [menuUp, if_neg h, BitVec.toInt_add, show (1 : Idx).toInt = 1 from rfl]
  exact bmod_of_idxRange (by omega) (by omega)

include hn in
theorem toInt_menuDown_of_zero (h : m.toInt = 0) : (menuDown n m).toInt = n - 1 := by
  rw [menuDown, if_pos (BitVec.eq_of_toInt_eq h), BitVec.toInt_ofInt]
  exact bmod_of_idxRange (by omega) (by omega)

include hn hm in
theorem toInt_menuDown_of_ne_zero (h : m.toInt ≠ 0) : (menuDown n m).toInt = m.toInt - 1 := by
  have hne : m ≠ 0 := fun h0 => h (by rw [h0]; rfl)
  rw [menuDown, if_neg hne, BitVec.toInt_sub, show (1 : Idx).toInt = 1 from rfl]
  exact bmod_of_idxRange (by omega) (by omega)

end

/-- Settles O52: the index by its range, the registers by the promotion and the move after it. -/
theorem menuNavigationWraps : Obligations.MenuNavigationWraps := by
  refine ⟨fun adcW d => ⟨decode_press (k := 1) rfl adcW d, decode_press (k := 4) rfl adcW d⟩, ⟨rfl, rfl, rfl, rfl⟩,
    fun k i s hi hk hflow hsel hinv => ?_⟩
  obtain ⟨⟨-, hn⟩, hm, -⟩ := (menuInv_iff s).1 hinv
  obtain ⟨st, shown, hinactive, hactive, hprom⟩ := promote_writes s
  have hnav (m : Idx) : s.promote.navigate m = { s with
      menu := { s.menu with menuStatus := st, mainMenuIndex := m }
      out := { s.out with events := s.out.events ++ shown ++ [.SHOW_MENU m st] } } := by
    rw [navigate_of_active (promote_active s), hprom]
    rfl
  have hexec {a : Action} (ha : s.params.actionMap[k] = a) := exec_press_of_dispatches hi ⟨hk, hflow, hsel⟩ ha
  refine ⟨st, menuUp s.params.nMain s.menu.mainMenuIndex, menuDown s.params.nMain s.menu.mainMenuIndex, shown,
    hinactive, hactive, toInt_menuUp_of_last, toInt_menuUp_of_ne_last hn hm, toInt_menuDown_of_zero hn,
    toInt_menuDown_of_ne_zero hn hm, fun ha => ?_, fun ha => ?_⟩
  · rw [hexec ha, State.runAction, hnav, hprom]
  · rw [hexec ha, State.runAction, hnav, hprom]

/-! The extended flow (R205, R206) -/

theorem mapFlow_of_present {s : State} (h : s.straps.sdFlow = .PRESENT) :
    s.mapFlow = (s.setMenu { s.menu with flowActive := true }).emit .FLOW_OPEN := by
  simp only [State.mapFlow, h]

theorem mapFlow_of_absent {s : State} (h : s.straps.sdFlow = .ABSENT) : s.mapFlow = s.emit (.ACTION 17) := by
  simp only [State.mapFlow, h, Action.id]

/-- Settles O53: the two builds, after the promotion. -/
theorem mapFlowOpensTheFlow : Obligations.MapFlowOpensTheFlow := by
  refine ⟨fun adcW d => decode_press (k := 17) rfl adcW d, rfl, rfl, fun k i s hi hk ha hflow hsel => ?_⟩
  obtain ⟨st, shown, hinactive, hactive, hprom⟩ := promote_writes s
  have hexec : exec i s = .next s.promote.mapFlow := exec_press_of_dispatches hi ⟨hk, hflow, hsel⟩ ha
  refine ⟨st, shown, hinactive, hactive, fun hsd => ?_, fun hsd => ?_⟩
  · rw [hexec, mapFlow_of_present (promote_straps s ▸ hsd), hprom]
    rfl
  · rw [hexec, mapFlow_of_absent (promote_straps s ▸ hsd), hprom]
    rfl

section
variable {k : Idx} {s : State}

theorem execMenuFlowkey_of_trigger (hf : s.menu.flowActive = true) (hlt : k.toNat < s.params.nSw)
    (hk : k.toNat = s.params.flowTriggerIndex.val) :
    execMenuFlowkey k s = .next ((s.setMenu { s.menu with flowActive := false }).emit .FLOW_CLOSE) := by
  rw [execMenuFlowkey, if_pos ⟨hf, hlt⟩, if_pos hk]

theorem execMenuFlowkey_of_other (hf : s.menu.flowActive = true) (hlt : k.toNat < s.params.nSw)
    (hk : k.toNat ≠ s.params.flowTriggerIndex.val) : execMenuFlowkey k s = .next (s.emit (.FLOW_KEY k)) := by
  rw [execMenuFlowkey, if_pos ⟨hf, hlt⟩, if_neg hk]

/-- R247: outside its contract. -/
theorem execMenuFlowkey_refused (h : s.menu.flowActive = false ∨ s.params.nSw ≤ k.toNat) :
    execMenuFlowkey k s = .next s.outOfContract :=
  if_neg fun ⟨hf, hlt⟩ => h.elim (ne_true_of_eq_false · hf) (not_le.2 hlt)

end

/-- Settles O54: the three branches of the operation. -/
theorem flowkeyRoutesOrCloses : Obligations.FlowkeyRoutesOrCloses := by
  intro k s
  have hword : (encode (.menuFlowkey k)).1 = 0x4100#16 ||| k.setWidth 16 :=
    wordOf_eq_or (by decide) (by decide) le_rfl k
  exact ⟨hword ▸ encodedInstructionDecodesBack s.params.adcW (.menuFlowkey k) rfl, execMenuFlowkey_of_trigger,
    execMenuFlowkey_of_other, execMenuFlowkey_refused⟩

end Sys2Proof.Machine
end

section
/-! PROOFS. O56 and O57: what no step but reset undoes (R208, R206). O56 is a matter of the moves of the menu registers
(O55). O57 needs which operation closed the flow: during the flow every other one leaves the menu registers alone. -/

namespace Sys2Proof.Machine

/-- R208: no move leaves the menus for `NO_MENUS_ACTIVE`: the notice of R184 is for a menu that is inactive already. -/
theorem active_of_move {n : Nat} {m m' : MenuRegs} (hm : MenuRegs.Move n m m') (h : m.menuStatus ≠ .noMenusActive) :
    m'.menuStatus ≠ .noMenusActive := by
  cases hm with
  | noMenu hst => exact absurd hst h
  | promote | returned | collapse => nofun
  | up | down | openFlow | closeFlow => exact h

/-- Settles O56: every step but reset is moves, and every move keeps a menu active. -/
theorem menusNeverDeactivate : Obligations.MenusNeverDeactivate :=
  fun _ _ h hr hs => menuMoves_keep (fun _ _ => active_of_move) (step_menuMoves h hr) hs

/-! Operations during the flow -/

/-- The flow is on in `s` and ended in `t`. -/
def State.ClosesFlow (s t : State) : Prop := s.menu.flowActive = true ∧ t.menu.flowActive = false

theorem not_closesFlow {s t : State} (h : t.menu.flowActive = s.menu.flowActive) : ¬s.ClosesFlow t := by
  rintro ⟨hs, ht⟩
  exact absurd (hs.symm.trans (h.symm.trans ht)) (by decide)

theorem not_closesFlow_of_menu {s t : State} (h : t.menu = s.menu) : ¬s.ClosesFlow t :=
  not_closesFlow (congrArg MenuRegs.flowActive h)

/-- R183: during the flow every `menu.press` is refused. -/
theorem menuPress_of_flow {s : State} (h : s.menu.flowActive = true) (k : Button) : s.menuPress k = s.outOfContract :=
  if_pos (.inl h)

theorem pressUnlisted_of_flow {s : State} (h : s.menu.flowActive = true) (k : Idx) : s.pressUnlisted k = s.outOfContract := by
  obtain ⟨_, hk⟩ | ⟨-, hk⟩ := pressUnlisted_cases k s
  · rw [hk, menuPress_of_flow h]
  · exact hk

/-- A select that was waiting as the flow opened does not end it. -/
theorem menuReturn_flowActive (s : State) : s.menuReturn.menu.flowActive = s.menu.flowActive := by
  unfold State.menuReturn
  split <;> rfl

theorem continueOperation_flowActive (s : State) : s.continueOperation.menu.flowActive = s.menu.flowActive := by
  unfold State.continueOperation
  split
  · rfl
  · rfl
  · rw [sampleOnce_menu]
  · exact menuReturn_flowActive s
  · split
    · rw [pollPass_menu]
    · rfl
    · rfl

theorem exec_menu_of_flow {i : Instr} {s t : State} (hi : ∀ k, i ≠ .menuFlowkey k) (hs : s.menu.flowActive = true)
    (h : exec i s = .next t) : t.menu = s.menu := by
  cases i with
  | cli | sei | qdecUpdate | abcSettle => cases h; rfl
  | qdecProcess => exact execQdecProcess_menu h
  | abcPoll => cases h; exact pollPass_menu _
  | abcSample => cases h; exact sampleOnce_menu s
  | abcClassify => exact execAbcClassify_menu h
  | abcCalload => exact execAbcCalload_menu h
  | abcWrload => exact execAbcWrload_menu h
  | pxInit => exact execPxInit_menu h
  | pxIsr => exact execPxIsr_menu h
  | pxTake => exact execPxTake_menu h
  | menuFlowkey k => exact absurd rfl (hi k)
  | menuPress0 | menuPress1 | menuPress2 | menuPress3 | menuPress4 | menuPress5 | menuPress6 | menuPress7 | menuPress8
  | menuPress9 | menuPress10 | menuPress11 | menuPress12 | menuPress13 | menuPress14 | menuPress15 | menuPress16
  | menuPress17 =>
    cases h
    rw [menuPress_of_flow hs]
    rfl

theorem execMenuFlowkey_closes_flow {k : Idx} {s t : State} (h : execMenuFlowkey k s = .next t) (hst : s.ClosesFlow t) :
    k.toNat = s.params.flowTriggerIndex.val ∧ t = (s.setMenu { s.menu with flowActive := false }).emit .FLOW_CLOSE := by
  have ⟨hs, _⟩ := hst
  obtain hge | hlt := le_or_gt s.params.nSw k.toNat
  · cases (execMenuFlowkey_refused (.inr hge)).symm.trans h
    exact absurd hst (not_closesFlow_of_menu rfl)
  · by_cases hk : k.toNat = s.params.flowTriggerIndex.val
    · cases (execMenuFlowkey_of_trigger hs hlt hk).symm.trans h
      exact ⟨hk, rfl⟩
    · cases (execMenuFlowkey_of_other hs hlt hk).symm.trans h
      exact absurd hst (not_closesFlow_of_menu rfl)

/-- R206: the flow ends in `menu.flowkey` of the trigger. -/
theorem exec_closes_flow {i : Instr} {s t : State} (h : exec i s = .next t) (hst : s.ClosesFlow t) :
    i = .menuFlowkey (BitVec.ofNat 8 s.params.flowTriggerIndex.val) ∧
      t = (s.setMenu { s.menu with flowActive := false }).emit .FLOW_CLOSE := by
  have ⟨hs, _⟩ := hst
  by_cases hi : ∃ k, i = .menuFlowkey k
  · obtain ⟨k, rfl⟩ := hi
    obtain ⟨hk, ht⟩ := execMenuFlowkey_closes_flow h hst
    exact ⟨by rw [← hk, BitVec.ofNat_toNat, BitVec.setWidth_eq], ht⟩
  · exact absurd hst (not_closesFlow_of_menu (exec_menu_of_flow (not_exists.1 hi) hs h))

/-! What follows `menu.flowkey` -/

/-- The sequencer asks for `menu.flowkey` in `PH_PRESS` only (R232). -/
theorem phase_of_flowkey {s : State} {k : Idx} (h : s.sequencerRequest = some (.op (.menuFlowkey k))) :
    s.sys.fgPhase = .PH_PRESS := by
  have hmem : Request.op (.menuFlowkey k) ∈ s.phaseRequests := List.mem_of_getElem? h
  cases hph : s.sys.fgPhase <;> simp only [State.phaseRequests, hph] at hmem
  case PH_PRESS => rfl
  case PH_BOOT =>
    unfold State.bootRequests at hmem
    split at hmem <;> simp at hmem
  all_goals simp [critical] at hmem

theorem phaseEnd_out (s : State) : s.phaseEnd.out = s.out := by
  unfold State.phaseEnd; split <;> rfl

theorem advance_out (s : State) : s.advance.out = s.out := by
  unfold State.advance
  split
  · rfl
  · exact phaseEnd_out s

/-- Nothing is routed in `PH_PRESS` (R232). -/
theorem routeResult_of_press {s : State} (h : s.sys.fgPhase = .PH_PRESS) : s.routeResult = s := by
  simp only [State.routeResult, h]

/-- Of the sequencer's phases, `PH_PRESS` puts nothing on a port after its operation; the host never does. -/
theorem afterOperation_out {s : State} (h : s.straps.seqEn = .sequencer → s.sys.fgPhase = .PH_PRESS) :
    s.afterOperation.out = s.out := by
  unfold State.afterOperation
  split
  · rfl
  · rename_i hseq
    split
    · rfl
    · rw [advance_out, routeResult_of_press (h hseq)]

/-! The step that closes the flow -/

/-- What the block has put on its ports by closing the flow: the event, and the word of the operation (R206, R81). -/
def OutLog.closeFlow (o : OutLog) (trigger : Button) : OutLog :=
  { o with
    events := o.events ++ [.FLOW_CLOSE]
    trace := o.trace ++ [(encode (.menuFlowkey (BitVec.ofNat 8 trigger.val))).1] }

theorem issue_closes_flow {q : Request} {s t : State} (h : s.issue q = .next t)
    (hq : s.straps.seqEn = .sequencer → s.sequencerRequest = some q) (hst : s.ClosesFlow t) :
    t.out = s.out.closeFlow s.params.flowTriggerIndex := by
  have ⟨hs, ht⟩ := hst
  obtain ⟨i, u, rfl, hu, rfl⟩ | ⟨k, -, rfl⟩ | ⟨-, rfl⟩ := issue_cases h
  · obtain ⟨hi, rfl⟩ := exec_closes_flow hu ⟨hs, afterOperation_menu u ▸ ht⟩
    refine (afterOperation_out fun hseq => ?_).trans ?_
    · exact phase_of_flowkey (s := s) (hi ▸ hq hseq)
    · rw [hi]
      rfl
  · refine absurd hst (not_closesFlow_of_menu ?_)
    rw [afterOperation_menu, pressUnlisted_of_flow (s := s.pushTrace _) hs]
    rfl
  · exact absurd hst (not_closesFlow_of_menu rfl)

theorem foregroundStep_closes_flow {s t : State} (h : s.foregroundStep = .next t) (hst : s.ClosesFlow t) :
    t.out = s.out.closeFlow s.params.flowTriggerIndex := by
  obtain rfl | ⟨-, -, rfl⟩ | ⟨-, -, hhost, w, d, rest, -, hq⟩ | ⟨-, -, -, q, hreq, hq⟩ | ⟨-, -, -, -, rfl⟩ :=
    foregroundStep_cases h
  · exact absurd hst (not_closesFlow rfl)
  · refine absurd hst (not_closesFlow ?_)
    rw [afterOperation_menu, continueOperation_flowActive]
  · exact issue_closes_flow (s := s.acceptCommand) hq (fun hseq => absurd (hhost.symm.trans hseq) (by decide)) hst
  · exact issue_closes_flow hq (fun _ => hreq) hst
  · exact absurd hst (not_closesFlow_of_menu (phaseEnd_menu s))

/-- Settles O57: the handlers and the environment leave the menu registers, so that the foreground closed the flow. -/
theorem flowEndsOnlyByItsTrigger : Obligations.FlowEndsOnlyByItsTrigger := by
  intro s t h hr hs ht
  have hst : s.popTurn.ClosesFlow t := ⟨hs, ht⟩
  obtain ⟨-, hf⟩ | ⟨c, p, -, hi⟩ | ⟨e, hn, rfl⟩ := step_cases h
  · rw [foregroundStep_closes_flow hf hst]
    exact ⟨rfl, rfl⟩
  · exact absurd hst (not_closesFlow_of_menu (handlerStep_menu hi))
  · have he : e ≠ .reset := fun he => hr (he ▸ hn)
    exact absurd hst (not_closesFlow_of_menu (envStep_menu he _))

end Sys2Proof.Machine
end

section
/-! PROOFS. O14: the critical section (R220 to R222). -/

namespace Sys2Proof.Machine

/-- Settles O14: the words are encodings, and each operation is its one write, so that the last of three decides. -/
theorem cliAndSeiWriteTheEnable : Obligations.CliAndSeiWriteTheEnable :=
  ⟨fun adcW _ => ⟨encodedInstructionDecodesBack adcW .cli rfl, encodedInstructionDecodesBack adcW .sei rfl⟩,
    fun _ => rfl, fun _ => rfl, fun _ => rfl⟩

end Sys2Proof.Machine
end

section
/-! PROOFS. What the sequencer does when an operation of a phase completes (R231 to R233): it routes the result, then the
place in the phase moves on or the phase ends. -/

namespace Sys2Proof.Machine

section
variable {s : State}

/-- An operation that is still in progress is not followed by anything. -/
theorem afterOperation_of_busy (hbusy : s.busy = true) : s.afterOperation = s := by
  unfold State.afterOperation
  split
  · rfl
  · exact if_pos hbusy

/-- R231: the sequencer routes the result of a completed operation and goes on. -/
theorem afterOperation_of_completed (hseq : s.straps.seqEn = .sequencer) (hbusy : s.busy = false) :
    s.afterOperation = s.routeResult.advance := by
  simp only [State.afterOperation, hseq, hbusy, Bool.false_eq_true, if_false]

theorem advance_of_lt (h : s.prog.seqPos + 1 < s.phaseLength) :
    s.advance = s.setProg { s.prog with seqPos := s.prog.seqPos + 1 } := if_pos h

theorem advance_of_last (h : s.phaseLength ≤ s.prog.seqPos + 1) : s.advance = s.phaseEnd := if_neg (not_lt.2 h)

theorem phaseLength_of_take (h : s.sys.fgPhase = .PH_TAKE) : s.phaseLength = 3 := by simp only [State.phaseLength, h]

theorem phaseLength_of_enc (h : s.sys.fgPhase = .PH_ENC) : s.phaseLength = 12 := by simp only [State.phaseLength, h]

theorem phaseEnd_of_take (h : s.sys.fgPhase = .PH_TAKE) : s.phaseEnd = s.toPhase .PH_ENC := by
  simp only [State.phaseEnd, h]

theorem phaseEnd_of_enc (h : s.sys.fgPhase = .PH_ENC) : s.phaseEnd = s.toPhase .PH_PRESS := by
  simp only [State.phaseEnd, h]

/-- The result of the operation is the word that it put on `dout` last. -/
theorem lastResponse_of_append {l : List Word} {w : Word} (h : s.out.responses = l ++ [w]) : s.lastResponse = w := by
  rw [State.lastResponse, h, List.getLast?_concat, Option.getD_some]

end

/-- A direction is read back from its code (R67). -/
theorem directionOf_directionWord (d : Direction) : directionOf (directionWord d) = d := by cases d <;> rfl

/-- An index is read back from its sign-extended word (R69). -/
theorem setWidth_idxWord (b : Idx) : (idxWord b).setWidth 8 = b := by
  ext i hi
  rw [idxWord, BitVec.getElem_setWidth, BitVec.getLsbD_signExtend, if_pos hi]
  simp [hi, hi.trans (show 8 < 16 by decide)]

end Sys2Proof.Machine
end

section
/-! PROOFS. O59: the critical sections of `PH_TAKE` and `PH_ENC` (R232), three foreground steps each. -/

namespace Sys2Proof.Machine

/-- The sequencer drives the foreground undisturbed for `n` turns, and stands at operation `pos` of phase `p`. -/
structure State.Stands (p : FgPhase) (pos n : Nat) (s : State) : Prop where
  runs : s.SequencerRuns n
  phase : s.sys.fgPhase = p
  pos : s.prog.seqPos = pos

/-- What a foreground step that begins an operation of the sequencer depends on, beside the turn. -/
def State.footing (s : State) : Vector ChipRegs Config.nChip × Straps × AbcState × MicroStep :=
  (s.chip, s.straps, s.abc.abcState, s.prog.micro)

theorem State.Stands.of_footing {s t : State} {p p' : FgPhase} {pos pos' n n' : Nat} (h : s.Stands p pos n)
    (hfoot : t.footing = s.footing) (hturns : t.turns = List.replicate n' .fg) (hphase : t.sys.fgPhase = p')
    (hpos : t.prog.seqPos = pos') : t.Stands p' pos' n' := by
  obtain ⟨⟨hseq, hmay, hbusy, -⟩, -, -⟩ := h
  simp only [State.footing, Prod.mk.injEq] at hfoot
  obtain ⟨hchip, hstraps, habc, hmicro⟩ := hfoot
  refine ⟨⟨by rw [hstraps, hseq], ?_, ?_, hturns⟩, hphase, hpos⟩
  · rw [← hmay, State.fgMayStep, State.fgMayStep, hchip]
  · rw [← hbusy, State.busy, State.busy, habc, hmicro]

/-- R231: a step in which the sequencer's operation completes is its meaning and then the work of the phase. -/
theorem step_of_stands {s u : State} {p : FgPhase} {pos n : Nat} {i : Instr} (h : s.Stands p pos (n + 1))
    (hreq : s.sequencerRequest = some (.op i))
    (hexec : exec i (State.pushTrace (encode i).1 { s with turns := List.replicate n .fg }) = .next u)
    (hu : u.Stands p pos n) : step s = .next u.routeResult.advance := by
  obtain ⟨⟨hseq, hmay, hbusy, hturns⟩, -, -⟩ := h
  obtain ⟨⟨hseq', -, hbusy', -⟩, -, -⟩ := hu
  have hcoming : s.comingTurns = .fg :: List.replicate n .fg := comingTurns_of_cons (hturns.trans List.replicate_succ)
  have hpop : s.popTurn = { s with turns := List.replicate n .fg } := by rw [State.popTurn, hcoming, List.tail_cons]
  rw [stepRunsTheAcceptedInstruction.2 s u i (nextTurn_of_coming hcoming) hmay hbusy hseq hreq (hpop ▸ hexec),
    afterOperation_of_completed hseq' hbusy']

/-- A run of `m` steps and the run after it. -/
theorem run_add_of_next {m : Nat} {s t : State} (h : core.run m s = .next t) (n : Nat) :
    core.run (m + n) s = core.run n t := by
  induction m generalizing s with
  | zero =>
    cases h
    rw [Nat.zero_add]
  | succ m ih =>
    simp only [Host.Core.run] at h
    split at h
    · rename_i s' hs'
      rw [Nat.add_right_comm, run_succ_of_next hs', ih h]
    · cases h
    · cases h

/-! A critical section (R78) -/

/-- The turn is taken, with `n` more to come, and the word of the operation is on the trace port. -/
def State.began (w : Word) (n : Nat) (s : State) : State :=
  { s with
    turns := List.replicate n .fg
    out := { s.out with trace := s.out.trace ++ [w] } }

/-- Interrupts are masked by the `cli` of a section, and the sequencer stands at the operation inside. -/
def State.masked (n : Nat) (s : State) : State :=
  { s with
    turns := List.replicate n .fg
    sys := { s.sys with irqEnable := false }
    prog := { s.prog with seqPos := s.prog.seqPos + 1 }
    out := { s.out with trace := s.out.trace ++ [0x0100#16] } }

/-- Interrupts are enabled by the `sei` of a section, and the phase goes on. -/
def State.unmasked (n : Nat) (s : State) : State :=
  ((s.began 0x0200#16 n).setIrqEnable true).routeResult.advance

/-- The operations `pos` to `pos + 2` of phase `p` are a critical section around `i`, and no result is routed at its `cli`. -/
structure SectionAt (p : FgPhase) (pos : Nat) (i : Instr) : Prop where
  request : ∀ {s : State} (j : Fin 3), s.sys.fgPhase = p → s.prog.seqPos = pos + j.val →
    s.sequencerRequest = (critical i)[j.val]?
  length : ∀ {s : State}, s.sys.fgPhase = p → pos + 2 < s.phaseLength
  quiet : ∀ {s : State}, s.sys.fgPhase = p → s.prog.seqPos = pos → s.routeResult = s

section
variable {s u : State} {p : FgPhase} {pos n : Nat} {i : Instr}

theorem State.Stands.masked (h : s.Stands p pos (n + 1)) : (s.masked n).Stands p (pos + 1) n :=
  h.of_footing rfl rfl h.phase (congrArg (· + 1) h.pos)

theorem step_of_cli (hsec : SectionAt p pos i) (h : s.Stands p pos (n + 1)) : step s = .next (s.masked n) := by
  have hu : ((s.began 0x0100#16 n).setIrqEnable false).Stands p pos n := h.of_footing rfl rfl h.phase h.pos
  have hlength := hsec.length hu.phase
  have hlt : ((s.began 0x0100#16 n).setIrqEnable false).prog.seqPos + 1 <
      ((s.began 0x0100#16 n).setIrqEnable false).phaseLength := by rw [hu.pos]; omega
  calc step s = .next ((s.began 0x0100#16 n).setIrqEnable false).routeResult.advance :=
        step_of_stands h (hsec.request 0 h.phase h.pos) rfl hu
    _ = .next (s.masked n) := by rw [hsec.quiet hu.phase hu.pos, advance_of_lt hlt]; rfl

theorem step_of_sei (hsec : SectionAt p pos i) (h : s.Stands p (pos + 2) (n + 1)) : step s = .next (s.unmasked n) :=
  step_of_stands h (hsec.request 2 h.phase h.pos) rfl (h.of_footing rfl rfl h.phase h.pos)

/-- A section is three steps: `cli`, the masked operation with the routing of its result, `sei`. -/
theorem run_section {v : State} (hsec : SectionAt p pos i) (h : s.Stands p pos (n + 3))
    (hexec : exec i ((s.masked (n + 2)).began (encode i).1 (n + 1)) = .next u) (hu : u.Stands p (pos + 1) (n + 1))
    (hroute : u.routeResult.advance = v) (hv : v.Stands p (pos + 2) (n + 1)) :
    core.run 3 s = .next (v.unmasked n) := by
  have hmask := h.masked
  have hop : step (s.masked (n + 2)) = .next v :=
    hroute ▸ step_of_stands hmask (hsec.request 1 hmask.phase hmask.pos) hexec hu
  rw [run_succ_of_next (step_of_cli hsec h), run_succ_of_next hop, run_succ_of_next (step_of_sei hsec hv)]
  rfl

end

/-! `PH_TAKE` -/

theorem routeResult_of_take_mask {s : State} (hphase : s.sys.fgPhase = .PH_TAKE) (hpos : s.prog.seqPos ≠ 1) :
    s.routeResult = s := by
  simp only [State.routeResult, hphase, hpos, if_false]

theorem sectionAt_take : SectionAt .PH_TAKE 0 .pxTake where
  request j hphase hpos := by simp only [State.sequencerRequest, State.phaseRequests, hphase, hpos, Nat.zero_add]
  length hphase := by rw [phaseLength_of_take hphase]; decide
  quiet hphase hpos := routeResult_of_take_mask hphase (by rw [hpos]; decide)

theorem exec_pxTake_masked {s : State} (h : s.sys.irqEnable = false) :
    exec .pxTake s = .next ((s.setPending Idx.NONE).respond (idxWord s.pendingButton)) := execPxTake_masked h

/-- R232: `fgButton <- px.take`. -/
theorem routeResult_of_take {s : State} {l : List Word} {b : Idx} (hphase : s.sys.fgPhase = .PH_TAKE)
    (hpos : s.prog.seqPos = 1) (hresp : s.out.responses = l ++ [idxWord b]) :
    s.routeResult = s.setSys { s.sys with fgButton := b } := by
  simp only [State.routeResult, hphase, hpos, if_true, lastResponse_of_append hresp, setWidth_idxWord]

/-- Inside the section: the result is routed and `sei` is next. -/
theorem advance_of_taken {s : State} {n : Nat} {l : List Word} {b : Idx} (h : s.Stands .PH_TAKE 1 n)
    (hresp : s.out.responses = l ++ [idxWord b]) :
    s.routeResult.advance = { s with
      sys := { s.sys with fgButton := b }
      prog := { s.prog with seqPos := 2 } } := by
  obtain ⟨-, hphase, hpos⟩ := h
  have hlt : (s.setSys { s.sys with fgButton := b }).prog.seqPos + 1 <
      (s.setSys { s.sys with fgButton := b }).phaseLength := by
    rw [phaseLength_of_take (by exact hphase), State.setSys_prog, hpos]
    decide
  rw [routeResult_of_take hphase hpos hresp, advance_of_lt hlt, State.setSys_prog, hpos]
  rfl

/-- The last `sei` of `PH_TAKE` ends the phase. -/
theorem unmasked_of_take {s : State} {m : Nat} (h : s.Stands .PH_TAKE 2 m) (n : Nat) :
    s.unmasked n = ((s.began 0x0200#16 n).setIrqEnable true).toPhase .PH_ENC := by
  have hphase : ((s.began 0x0200#16 n).setIrqEnable true).sys.fgPhase = .PH_TAKE := h.phase
  have hpos : ((s.began 0x0200#16 n).setIrqEnable true).prog.seqPos = 2 := h.pos
  rw [State.unmasked, routeResult_of_take_mask hphase (by rw [hpos]; decide),
    advance_of_last (by rw [phaseLength_of_take hphase, hpos]), phaseEnd_of_take hphase]

/-- The state inside the section of `PH_TAKE`, before its `sei`, with `n` turns to come. -/
def State.taking (n : Nat) (s : State) : State :=
  { s with
    turns := List.replicate n .fg
    pendingButton := Idx.NONE
    sys := { s.sys with irqEnable := false, fgButton := s.pendingButton }
    prog := { s.prog with seqPos := 2 }
    out := { s.out with
      responses := s.out.responses ++ [idxWord s.pendingButton]
      trace := s.out.trace ++ [0x0100#16] ++ [0x3200#16] } }

/-- The state after `PH_TAKE`, with `n` turns to come. -/
def State.taken (n : Nat) (s : State) : State :=
  { s with
    turns := List.replicate n .fg
    pendingButton := Idx.NONE
    sys := { s.sys with irqEnable := true, fgPhase := .PH_ENC, fgButton := s.pendingButton }
    prog := { s.prog with seqPos := 0, seqDir := .noStep }
    out := { s.out with
      responses := s.out.responses ++ [idxWord s.pendingButton]
      trace := s.out.trace ++ [0x0100#16] ++ [0x3200#16] ++ [0x0200#16] } }

/-- R232: `PH_TAKE` puts the pending button in `fgButton`. -/
theorem run_take {s : State} {n : Nat} (h : s.Stands .PH_TAKE 0 (n + 3)) : core.run 3 s = .next (s.taken n) := by
  have hu : State.Stands .PH_TAKE 1 (n + 1) ((((s.masked (n + 2)).began 0x3200#16 (n + 1)).setPending Idx.NONE).respond
      (idxWord s.pendingButton)) := h.masked.of_footing rfl rfl h.phase h.masked.pos
  have hv : (s.taking (n + 1)).Stands .PH_TAKE 2 (n + 1) := h.of_footing rfl rfl h.phase rfl
  have hroute := advance_of_taken hu (b := s.pendingButton) rfl
  have hrun : core.run 3 s = .next ((s.taking (n + 1)).unmasked n) :=
    run_section sectionAt_take h (exec_pxTake_masked rfl) hu (hroute.trans rfl) hv
  rw [hrun, unmasked_of_take hv]
  rfl

/-! `PH_ENC` -/

theorem requests_of_enc : ∀ (e : EncId) (j : Fin 3),
    ((List.finRange Config.nEnc).flatMap fun e => critical (.qdecProcess e))[3 * e.val + j.val]? =
      (critical (.qdecProcess e))[j.val]? := by decide

theorem sectionAt_enc (e : EncId) : SectionAt .PH_ENC (3 * e.val) (.qdecProcess e) where
  request j hphase hpos := by
    simp only [State.sequencerRequest, State.phaseRequests, hphase, hpos, requests_of_enc]
  length hphase := by
    have he : e.val < 4 := e.isLt
    rw [phaseLength_of_enc hphase]
    omega
  quiet hphase hpos := by
    have h1 : 3 * e.val % 3 ≠ 1 := by omega
    have h2 : 3 * e.val % 3 ≠ 2 := by omega
    simp only [State.routeResult, hphase, hpos, h1, h2, false_and, if_false]

/-- The event of decoder `e` after a drain that gave `d` (R232). -/
def encEvents (e : EncId) : Direction → List Event
  | .noStep => []
  | .CW => [.ENC_EVENT e .CW]
  | .CCW => [.ENC_EVENT e .CCW]

/-- R232: `d <- qdec.process e`. -/
theorem routeResult_of_process {s : State} {e : EncId} {l : List Word} {d : Direction} (hphase : s.sys.fgPhase = .PH_ENC)
    (hpos : s.prog.seqPos = 3 * e.val + 1) (hresp : s.out.responses = l ++ [directionWord d]) :
    s.routeResult = s.setProg { s.prog with seqDir := d } := by
  have h1 : (3 * e.val + 1) % 3 = 1 := by omega
  simp only [State.routeResult, hphase, hpos, h1, if_true, lastResponse_of_append hresp, directionOf_directionWord]

/-- R232: `ENC_EVENT(e, d)` if the decoder has turned. -/
theorem routeResult_of_drained {s : State} {e : EncId} (hphase : s.sys.fgPhase = .PH_ENC)
    (hpos : s.prog.seqPos = 3 * e.val + 2) :
    s.routeResult = { s with
      prog := { s.prog with seqDir := .noStep }
      out := { s.out with events := s.out.events ++ encEvents e s.prog.seqDir } } := by
  have h2 : (3 * e.val + 2) % 3 = 2 := by omega
  have he : Fin.ofNat Config.nEnc ((3 * e.val + 2) / 3) = e := by clear hpos h2; revert e; decide
  have hroute : s.routeResult = if s.prog.seqDir ≠ .noStep then
      (s.emit (.ENC_EVENT e s.prog.seqDir)).setProg { s.prog with seqDir := .noStep } else s := by
    simp only [State.routeResult, hphase, hpos, h2, he, OfNat.ofNat_ne_one, if_false, true_and]
  rw [hroute]
  cases hdir : s.prog.seqDir with
  | noStep =>
    have hprog : { s.prog with seqDir := .noStep } = s.prog := by rw [← hdir]
    rw [hprog, encEvents, List.append_nil, if_neg (not_not_intro rfl)]
  | CW | CCW => exact if_pos nofun

/-- Inside the section of decoder `e`: the direction is kept and `sei` is next. -/
theorem advance_of_processed {s : State} {n : Nat} {e : EncId} {l : List Word} {d : Direction}
    (h : s.Stands .PH_ENC (3 * e.val + 1) n) (hresp : s.out.responses = l ++ [directionWord d]) :
    s.routeResult.advance = s.setProg { s.prog with seqPos := 3 * e.val + 2, seqDir := d } := by
  obtain ⟨-, hphase, hpos⟩ := h
  have hlt : (s.setProg { s.prog with seqDir := d }).prog.seqPos + 1 <
      (s.setProg { s.prog with seqDir := d }).phaseLength := by
    have he : e.val < 4 := e.isLt
    rw [phaseLength_of_enc (by exact hphase), State.setProg_prog, hpos]
    omega
  rw [routeResult_of_process hphase hpos hresp, advance_of_lt hlt, State.setProg_prog, hpos]
  rfl

/-- The state at the end of the section of decoder `e`, with `n` turns to come. -/
def State.drained (e : EncId) (n : Nat) (s : State) : State :=
  { s with
    turns := List.replicate n .fg
    enc := s.enc.set e { s.enc[e] with acc := 0 }
    sys := { s.sys with irqEnable := true }
    prog := { s.prog with seqPos := 3 * e.val + 2, seqDir := .noStep }
    out :=
      { events := s.out.events ++ encEvents e (signDirection s.enc[e].acc)
        responses := s.out.responses ++ [directionWord (signDirection s.enc[e].acc)]
        trace := s.out.trace ++ [0x0100#16] ++ [wordOf 1 1 e.val] ++ [0x0200#16] } }

theorem run_drain {s : State} {n : Nat} {e : EncId} (h : s.Stands .PH_ENC (3 * e.val) (n + 3)) :
    core.run 3 s = .next (s.drained e n).advance := by
  have hu : State.Stands .PH_ENC (3 * e.val + 1) (n + 1)
      ((((s.masked (n + 2)).began (wordOf 1 1 e.val) (n + 1)).clearAcc e).respond
        (directionWord (signDirection s.enc[e].acc))) := h.masked.of_footing rfl rfl h.phase h.masked.pos
  have hrun := run_section (sectionAt_enc e) h (execQdecProcess_masked rfl e) hu (advance_of_processed hu rfl)
    (hu.of_footing rfl rfl h.phase rfl)
  rw [hrun, State.unmasked, routeResult_of_drained (by exact h.phase) rfl]
  rfl

/-- After a section that is not the last one the next decoder follows. -/
theorem advance_of_drained_lt {s : State} {e : EncId} (n : Nat) (hphase : s.sys.fgPhase = .PH_ENC) (he : e.val + 1 < 4) :
    (s.drained e n).advance = (s.drained e n).setProg { s.prog with seqPos := 3 * (e.val + 1), seqDir := .noStep } := by
  have hlt : (s.drained e n).prog.seqPos + 1 < (s.drained e n).phaseLength := by
    have hpos : (s.drained e n).prog.seqPos = 3 * e.val + 2 := rfl
    rw [phaseLength_of_enc (by exact hphase), hpos]
    omega
  rw [advance_of_lt hlt]
  rfl

/-- After the last one the phase ends. -/
theorem advance_of_drained_last {s : State} (n : Nat) (hphase : s.sys.fgPhase = .PH_ENC) :
    (s.drained 3 n).advance = (s.drained 3 n).toPhase .PH_PRESS := by
  have hge : (s.drained 3 n).phaseLength ≤ (s.drained 3 n).prog.seqPos + 1 := by
    rw [phaseLength_of_enc (by exact hphase)]
    exact le_refl 12
  rw [advance_of_last hge, phaseEnd_of_enc (by exact hphase)]

/-! The four decoders -/

/-- From `s` to `t` the decoders below `k` have been drained, their events are out in order, and the buttons are kept. -/
structure State.DrainedBelow (k : Nat) (s t : State) : Prop where
  fgButton : t.sys.fgButton = s.sys.fgButton
  pendingButton : t.pendingButton = s.pendingButton
  enc : ∀ e : EncId, t.enc[e] = if e.val < k then { s.enc[e] with acc := 0 } else s.enc[e]
  events : t.out.events = s.out.events ++
    ((List.finRange Config.nEnc).take k).flatMap fun e => encEvents e (signDirection s.enc[e].acc)

theorem drainedBelow_zero (s : State) : s.DrainedBelow 0 s where
  fgButton := rfl
  pendingButton := rfl
  enc _ := (if_neg (Nat.not_lt_zero _)).symm
  events := (List.append_nil _).symm

theorem State.DrainedBelow.succ {s t : State} {e : EncId} (h : s.DrainedBelow e.val t) (n : Nat) :
    s.DrainedBelow (e.val + 1) (t.drained e n) where
  fgButton := h.fgButton
  pendingButton := h.pendingButton
  enc d := by
    by_cases hd : d = e
    · subst hd
      have hprev : t.enc[d] = s.enc[d] := (h.enc d).trans (if_neg (lt_irrefl _))
      rw [if_pos (Nat.lt_succ_self _), ← hprev]
      exact enc_set_self ..
    · have hiff : d.val < e.val + 1 ↔ d.val < e.val := by
        have := Fin.val_ne_of_ne hd
        omega
      simp only [hiff, ← h.enc d]
      exact enc_set_ne _ hd _
  events := by
    have hprev : t.enc[e] = s.enc[e] := (h.enc e).trans (if_neg (lt_irrefl _))
    have htake : (List.finRange Config.nEnc).take (e.val + 1) = (List.finRange Config.nEnc).take e.val ++ [e] := by
      clear h hprev; revert e; decide
    rw [htake, List.flatMap_append, ← List.append_assoc, ← h.events, List.flatMap_singleton, ← hprev]
    rfl

/-- The sections of the first decoders, three steps each. -/
theorem run_decoders {s : State} {k n : Nat} (hk : k < 4) (h : s.Stands .PH_ENC 0 (3 * k + n)) :
    ∃ t, core.run (3 * k) s = .next t ∧ t.Stands .PH_ENC (3 * k) n ∧ s.DrainedBelow k t := by
  induction k generalizing n with
  | zero => exact ⟨s, rfl, Nat.zero_add n ▸ h, drainedBelow_zero s⟩
  | succ k ih =>
    obtain ⟨t, hrun, hstands, hdrained⟩ := ih (n := n + 3) (Nat.lt_of_succ_lt hk)
      (by rwa [show 3 * k + (n + 3) = 3 * (k + 1) + n by omega])
    obtain ⟨e, rfl⟩ : ∃ e : EncId, e.val = k := ⟨⟨k, (Nat.lt_succ_self k).trans hk⟩, rfl⟩
    have hstep : core.run 3 t =
        .next ((t.drained e n).setProg { t.prog with seqPos := 3 * (e.val + 1), seqDir := .noStep }) :=
      advance_of_drained_lt n hstands.phase hk ▸ run_drain hstands
    refine ⟨_, (run_add_of_next hrun 3).trans hstep, hstands.of_footing rfl rfl hstands.phase rfl, ?_⟩
    have hsucc := hdrained.succ (e := e) n
    exact ⟨hsucc.fgButton, hsucc.pendingButton, hsucc.enc, hsucc.events⟩

/-- The event of a decoder by the sign of its accumulator. -/
theorem encEvents_signDirection (e : EncId) (v : Int) : encEvents e (signDirection v) =
    Option.toList (if v > 0 then some (.ENC_EVENT e .CW) else if v < 0 then some (.ENC_EVENT e .CCW) else none) := by
  unfold signDirection
  split
  · rfl
  · split <;> rfl

/-- Settles O59: the section of `PH_TAKE`, then those of the four decoders, the last of which ends the phase. -/
theorem sequencerTakesAndDrains : Obligations.SequencerTakesAndDrains := by
  intro s hruns hphase hpos _
  have hstart : s.Stands .PH_TAKE 0 15 := ⟨hruns, hphase, hpos⟩
  have hstands : (s.taken 12).Stands .PH_ENC 0 12 := hstart.of_footing rfl rfl rfl rfl
  obtain ⟨t, hrun, hlast, hdrained⟩ := run_decoders (k := 3) (n := 3) (by decide) hstands
  have hall : (s.taken 12).DrainedBelow 4 (t.drained 3 0) := hdrained.succ (e := 3) 0
  have hend : core.run 3 t = .next ((t.drained 3 0).toPhase .PH_PRESS) :=
    advance_of_drained_last 0 hlast.phase ▸ run_drain (e := 3) hlast
  refine ⟨(t.drained 3 0).toPhase .PH_PRESS, ?_, hall.fgButton, hall.pendingButton,
    fun e => (hall.enc e).trans (if_pos e.isLt), ?_, rfl, rfl, rfl⟩
  · calc core.run 15 s = core.run 12 (s.taken 12) := run_add_of_next (run_take hstart) 12
      _ = core.run 3 t := run_add_of_next hrun 3
      _ = _ := hend
  · simp only [List.filterMap_eq_flatMap_toList, ← encEvents_signDirection]
    exact hall.events

end Sys2Proof.Machine
end

section
/-! PROOFS. What the operations of `PH_POLL` and `PH_PRESS` neither read nor write: the turns to come, the trace and the place
of the sequencer. What they do is therefore the same before the step and at the state in which the step begins them. -/

namespace Sys2Proof.Machine

/-- The turns to come, the trace, and the place and phase of the sequencer. -/
structure Stamp where
  turns : List Turn
  trace : List Word
  seqPos : Nat
  phase : FgPhase

/-- What stands in a state for these. -/
def State.stamp (s : State) : Stamp := ⟨s.turns, s.out.trace, s.prog.seqPos, s.sys.fgPhase⟩

/-- The state with others. -/
def State.stamped (x : Stamp) (s : State) : State :=
  { s with
    turns := x.turns
    out := { s.out with trace := x.trace }
    prog := { s.prog with seqPos := x.seqPos }
    sys := { s.sys with fgPhase := x.phase } }

theorem stamp_of_stamped_eq {u : State} {x : Stamp} (h : u.stamped x = u) : u.stamp = x :=
  (congrArg State.stamp h).symm

/-- `f` has no part in the stamp. -/
def StampFree (f : State → State) : Prop := ∀ (x : Stamp) (s : State), f (s.stamped x) = (f s).stamped x

/-- The choice between two such operations is one, if it does not look at the stamp. -/
theorem StampFree.ite {c : State → Prop} [∀ s, Decidable (c s)] {f g : State → State} (hc : ∀ x s, c (s.stamped x) ↔ c s)
    (hf : StampFree f) (hg : StampFree g) : StampFree fun s => if c s then f s else g s := by
  intro x s
  dsimp only
  by_cases h : c s
  · rw [if_pos h, if_pos ((hc x s).2 h), hf]
  · rw [if_neg h, if_neg (mt (hc x s).1 h), hg]

/-! `abc.poll` -/

theorem pollPass_stampFree : StampFree State.pollPass := by
  intro x s
  cases hadc : s.env.adc with
  | nil => rw [pollPass_nil hadc, pollPass_nil (s := s.stamped x) hadc]
  | cons raw rest =>
    by_cases hs : s.params.floatSentinel = some raw
    · rw [pollPass_sentinel hadc hs, pollPass_sentinel (s := s.stamped x) hadc hs]; rfl
    · cases hst : stableFlag (smoothStep raw s.abc.smoothed) s.abc.smoothed with
      | true =>
        cases hcal : s.abc.calibrated s.params.nSw with
        | true =>
          rw [pollPass_of_stable_calibrated hadc hs hst hcal,
            pollPass_of_stable_calibrated (s := s.stamped x) hadc hs hst hcal]; rfl
        | false =>
          rw [pollPass_of_stable_uncalibrated hadc hs hst hcal,
            pollPass_of_stable_uncalibrated (s := s.stamped x) hadc hs hst hcal]; rfl
      | false => rw [pollPass_of_unstable hadc hs hst, pollPass_of_unstable (s := s.stamped x) hadc hs hst]; rfl

/-! `menu.press` -/

theorem promote_stampFree : StampFree State.promote := by
  intro x s
  by_cases h : s.menu.menuStatus = .noMenusActive
  · rw [promote_of_inactive h, promote_of_inactive (s := s.stamped x) h]; rfl
  · rw [promote_of_active h, promote_of_active (s := s.stamped x) h]

theorem menuReturn_stampFree : StampFree State.menuReturn := by
  intro x s
  cases h : s.env.ret with
  | nil => rw [menuReturn_nil h, menuReturn_nil (s := s.stamped x) h]; rfl
  | cons r rest => rw [menuReturn_cons h, menuReturn_cons (s := s.stamped x) h]; rfl

theorem select_of_ne_secondary {s : State} (h : s.menu.menuStatus ≠ .secondaryMenuActive) : s.select = s.selectPrimary := by
  unfold State.select
  split
  · contradiction
  · rfl

theorem select_stampFree : StampFree State.select := by
  intro x s
  by_cases h : s.menu.menuStatus = .secondaryMenuActive
  · rw [select_of_secondary h, select_of_secondary (s := s.stamped x) h]; rfl
  · rw [select_of_ne_secondary h, select_of_ne_secondary (s := s.stamped x) h]
    exact menuReturn_stampFree x (s.emit (.CALL_MENUFN s.menu.mainMenuIndex))

theorem navigate_stampFree (m : Idx) : StampFree (State.navigate m) :=
  StampFree.ite (fun _ _ => Iff.rfl) (fun _ _ => rfl) (fun _ _ => rfl)

theorem mapFlow_stampFree : StampFree State.mapFlow := by
  intro x s
  cases h : s.straps.sdFlow with
  | PRESENT => rw [mapFlow_of_present h, mapFlow_of_present (s := s.stamped x) h]; rfl
  | ABSENT => rw [mapFlow_of_absent h, mapFlow_of_absent (s := s.stamped x) h]; rfl

theorem runAction_stampFree (a : Action) : StampFree (State.runAction a) := by
  intro x s
  cases a
  case SELECT => exact select_stampFree x s
  case MENU_UP => exact navigate_stampFree _ x s
  case MENU_DOWN => exact navigate_stampFree _ x s
  case MAP_FLOW => exact mapFlow_stampFree x s
  all_goals rfl

theorem menuPress_stampFree (k : Button) : StampFree (State.menuPress k) :=
  StampFree.ite (fun _ _ => Iff.rfl) (fun _ _ => rfl)
    (StampFree.ite (fun _ _ => Iff.rfl) (fun _ _ => rfl) fun x s =>
      (congrArg (State.runAction _) (promote_stampFree x s)).trans (runAction_stampFree _ x s.promote))

theorem menuPress_stamp (k : Button) (s : State) : (s.menuPress k).stamp = s.stamp :=
  stamp_of_stamped_eq (menuPress_stampFree k s.stamp s).symm

/-! The meanings -/

/-- The meaning of `i` has no part in the stamp. -/
def StampFreeMeaning (i : Instr) : Prop :=
  ∀ (x : Stamp) {s u : State}, exec i s = .next u → exec i (s.stamped x) = .next (u.stamped x)

theorem stampFreeMeaning_of_eq {i : Instr} {f : State → State} (hf : StampFree f) (h : ∀ s, exec i s = .next (f s)) :
    StampFreeMeaning i := by
  intro x s u hu
  cases (h s).symm.trans hu
  rw [h, hf]

theorem stamp_of_exec {i : Instr} (hi : StampFreeMeaning i) {s u : State} (h : exec i s = .next u) : u.stamp = s.stamp := by
  have hsame : exec i s = .next (u.stamped s.stamp) := hi s.stamp h
  exact stamp_of_stamped_eq (Host.Outcome.next.inj (hsame.symm.trans h))

theorem abcPoll_stampFree : StampFreeMeaning .abcPoll :=
  stampFreeMeaning_of_eq (fun x s => pollPass_stampFree x (s.pollBegun _)) fun _ => exec_abcPoll rfl

theorem press_stampFree {k : Nat} {i : Instr} (h : pressOf k = some i) : StampFreeMeaning i := by
  obtain ⟨hk, hexec⟩ := exec_pressOf h
  exact stampFreeMeaning_of_eq (menuPress_stampFree ⟨k, hk⟩) hexec

theorem menuFlowkey_stampFree (k : Idx) : StampFreeMeaning (.menuFlowkey k) := by
  intro x s u h
  by_cases hin : s.menu.flowActive = true ∧ k.toNat < s.params.nSw
  · obtain ⟨hflow, hlt⟩ := hin
    by_cases hk : k.toNat = s.params.flowTriggerIndex.val
    · cases (execMenuFlowkey_of_trigger hflow hlt hk).symm.trans h
      exact execMenuFlowkey_of_trigger (s := s.stamped x) hflow hlt hk
    · cases (execMenuFlowkey_of_other hflow hlt hk).symm.trans h
      exact execMenuFlowkey_of_other (s := s.stamped x) hflow hlt hk
  · have hout : s.menu.flowActive = false ∨ s.params.nSw ≤ k.toNat := by
      rwa [not_and_or, Bool.not_eq_true, not_lt] at hin
    cases (execMenuFlowkey_refused hout).symm.trans h
    exact execMenuFlowkey_refused (s := s.stamped x) hout

end Sys2Proof.Machine
end

section
/-! PROOFS. O60: the phases `PH_POLL`, `PH_SETTLE` and `PH_PRESS` (R232, R233). Each step is the meaning of the phase's
operation at the state before the step, restamped, and then what the sequencer does when that completes. -/

namespace Sys2Proof.Machine

/-! The sequencer after an operation of these phases -/

/-- R231: the first phase of the loop. -/
theorem firstPhase_eq (x : Straps) : x.firstPhase = if x.acqMode = .EXPANDER then .PH_TAKE else .PH_POLL := by
  unfold Straps.firstPhase
  split <;> rename_i h <;> rw [h] <;> rfl

section
variable {s : State}

theorem advance_of_poll (hphase : s.sys.fgPhase = .PH_POLL) (hpos : s.prog.seqPos = 0) :
    s.advance = s.toPhase (if s.sys.fgButton = Idx.NONE then .PH_POLL else .PH_SETTLE) := by
  have hlast : s.phaseLength ≤ s.prog.seqPos + 1 := by simp only [State.phaseLength, hphase, hpos, le_refl]
  rw [advance_of_last hlast]
  simp only [State.phaseEnd, hphase]

theorem advance_of_settle (hphase : s.sys.fgPhase = .PH_SETTLE) (hpos : s.prog.seqPos = 0) :
    s.advance = s.toPhase .PH_PRESS := by
  have hlast : s.phaseLength ≤ s.prog.seqPos + 1 := by simp only [State.phaseLength, hphase, hpos, le_refl]
  rw [advance_of_last hlast]
  simp only [State.phaseEnd, hphase]

theorem phaseEnd_of_press (hphase : s.sys.fgPhase = .PH_PRESS) :
    s.phaseEnd = (s.setSys { s.sys with fgButton := Idx.NONE }).toPhase s.straps.firstPhase := by
  simp only [State.phaseEnd, hphase]

theorem advance_of_press (hphase : s.sys.fgPhase = .PH_PRESS) (hpos : s.prog.seqPos = 0) :
    s.advance = (s.setSys { s.sys with fgButton := Idx.NONE }).toPhase s.straps.firstPhase := by
  have hlast : s.phaseLength ≤ s.prog.seqPos + 1 := by simp only [State.phaseLength, hphase, hpos, le_refl]
  rw [advance_of_last hlast, phaseEnd_of_press hphase]

/-- R233: `fgButton <- abc.poll`. -/
theorem routeResult_of_poll (hphase : s.sys.fgPhase = .PH_POLL) :
    s.routeResult = s.setSys { s.sys with fgButton := s.lastResponse.setWidth 8 } := by
  simp only [State.routeResult, hphase]

theorem routeResult_of_settle (hphase : s.sys.fgPhase = .PH_SETTLE) : s.routeResult = s := by
  simp only [State.routeResult, hphase]

end

/-! The steps -/

/-- It is the turn of a foreground that the sequencer drives, and the sequencer stands at the first operation of a phase. -/
structure State.AtPhaseStart (s : State) : Prop where
  turn : s.nextTurn = .fg
  mayStep : s.fgMayStep = true
  seq : s.straps.seqEn = .sequencer
  pos : s.prog.seqPos = 0

/-- The stamp once the turn is taken, with `tr` the trace. -/
def State.stepStamp (tr : List Word) (s : State) : Stamp := { s.stamp with turns := s.comingTurns.tail, trace := tr }

section
variable {s u : State}

/-- A step that begins the operation `i` of the phase (R231, R81). -/
theorem step_of_beginning {i : Instr} (h : s.AtPhaseStart) (hbusy : s.busy = false)
    (hreq : s.sequencerRequest = some (.op i)) (hi : StampFreeMeaning i) (hexec : exec i s = .next u) :
    step s = .next (u.stamped (s.stepStamp (s.out.trace ++ [(encode i).1]))).afterOperation :=
  have hbegun : exec i (s.popTurn.pushTrace (encode i).1) =
      .next (u.stamped (s.stepStamp (s.out.trace ++ [(encode i).1]))) :=
    @hi (s.stepStamp (s.out.trace ++ [(encode i).1])) s u hexec
  stepRunsTheAcceptedInstruction.2 s _ i h.turn h.mayStep hbusy h.seq hreq hbegun

/-- A step that goes on with the operation in progress. -/
theorem step_of_going_on (h : s.AtPhaseStart) (hbusy : s.busy = true) :
    step s = .next s.popTurn.continueOperation.afterOperation := by
  rw [step_of_fg h.turn, foregroundStep_of_busy (s := s.popTurn) h.mayStep hbusy]

/-! `PH_POLL` -/

/-- R233: the button that a poll returned is kept, and decides what follows. -/
theorem afterOperation_of_poll (hseq : s.straps.seqEn = .sequencer) (hbusy : s.busy = false)
    (hphase : s.sys.fgPhase = .PH_POLL) (hpos : s.prog.seqPos = 0) :
    s.afterOperation = (s.setSys { s.sys with fgButton := s.lastResponse.setWidth 8 }).toPhase
      (if s.lastResponse.setWidth 8 = Idx.NONE then .PH_POLL else .PH_SETTLE) := by
  rw [afterOperation_of_completed hseq hbusy, routeResult_of_poll hphase,
    advance_of_poll (by exact hphase) (by exact hpos), State.setSys_sys]

/-- A pass that does not end the poll leaves the system registers. -/
theorem pollPass_sys_of_busy (hmicro : s.prog.micro = .idle) (hbusy : s.pollPass.busy = true) : s.pollPass.sys = s.sys := by
  cases hadc : s.env.adc with
  | nil => rw [pollPass_nil hadc]
  | cons raw rest =>
    by_cases hs : s.params.floatSentinel = some raw
    · rw [pollPass_sentinel hadc hs]; rfl
    · cases hst : stableFlag (smoothStep raw s.abc.smoothed) s.abc.smoothed with
      | true =>
        refine absurd hbusy ?_
        cases hcal : s.abc.calibrated s.params.nSw with
        | true => rw [pollPass_of_stable_calibrated hadc hs hst hcal]; simp [State.busy, hmicro]
        | false => rw [pollPass_of_stable_uncalibrated hadc hs hst hcal]; simp [State.busy, hmicro]
      | false => rw [pollPass_of_unstable hadc hs hst]; rfl

/-- A pass of `abc.poll`, the first or a later one. -/
def State.PollsTo (s u : State) : Prop :=
  s.busy = false ∧ exec .abcPoll s = .next u ∨
    s.prog.micro = .idle ∧ s.abc.abcState = .ABC_SAMPLING ∧ u = s.pollPass

theorem micro_of_not_busy (h : s.busy = false) : s.prog.micro = .idle := by
  by_contra hm
  rw [busy_of_micro hm] at h
  cases h

theorem pollsTo_sys (h : s.PollsTo u) (hbusy : u.busy = true) : u.sys = s.sys := by
  obtain ⟨hidle, hexec⟩ | ⟨hmicro, -, rfl⟩ := h
  · cases (exec_abcPoll rfl).symm.trans hexec
    have hmicro := micro_of_not_busy hidle
    exact pollPass_sys_of_busy (s := s.pollBegun _) hmicro hbusy
  · exact pollPass_sys_of_busy hmicro hbusy

theorem pollsTo_straps (h : s.PollsTo u) : u.straps = s.straps := by
  obtain ⟨-, hexec⟩ | ⟨-, -, rfl⟩ := h
  · exact (config_eq_iff.1 (exec_config hexec)).2
  · exact (config_eq_iff.1 (pollPass_config s)).2

theorem step_of_pollsTo (h : s.AtPhaseStart) (hphase : s.sys.fgPhase = .PH_POLL) (hu : s.PollsTo u) :
    ∃ tr, step s = .next (u.stamped (s.stepStamp tr)).afterOperation := by
  obtain ⟨hidle, hexec⟩ | ⟨hmicro, hsampling, rfl⟩ := hu
  · have hreq : s.sequencerRequest = some (.op .abcPoll) := by
      simp only [State.sequencerRequest, State.phaseRequests, hphase, h.pos]
      rfl
    exact ⟨_, step_of_beginning h hidle hreq abcPoll_stampFree hexec⟩
  · refine ⟨s.out.trace, ?_⟩
    rw [step_of_going_on h (busy_of_abcState (by rw [hsampling]; decide)),
      continueOperation_of_sampling (s := s.popTurn) hmicro hsampling]
    exact congrArg (fun t : State => Host.Outcome.next t.afterOperation) (pollPass_stampFree (s.stepStamp s.out.trace) s)

theorem step_poll (h : s.AtPhaseStart) (hphase : s.sys.fgPhase = .PH_POLL) (hu : s.PollsTo u) :
    ∃ t, step s = .next t ∧ t.abc = u.abc ∧ t.env = u.env ∧ t.out.responses = u.out.responses ∧ t.prog.seqPos = 0 ∧
      (u.busy = true → t.sys = s.sys) ∧
      ∀ b : Idx, u.busy = false → u.out.responses = s.out.responses ++ [b.signExtend 16] →
        t.sys = { u.sys with fgButton := b, fgPhase := if b = 0xFF#8 then .PH_POLL else .PH_SETTLE } := by
  obtain ⟨tr, hstep⟩ := step_of_pollsTo h hphase hu
  refine ⟨_, hstep, ?_⟩
  cases hbusy : u.busy with
  | true =>
    rw [afterOperation_of_busy (s := u.stamped (s.stepStamp tr)) hbusy]
    refine ⟨rfl, rfl, rfl, h.pos, fun _ => ?_, nofun⟩
    have hsys := pollsTo_sys hu hbusy
    calc (u.stamped (s.stepStamp tr)).sys = { u.sys with fgPhase := s.sys.fgPhase } := rfl
      _ = s.sys := by rw [hsys]
  | false =>
    rw [afterOperation_of_poll (s := u.stamped (s.stepStamp tr)) ((congrArg Straps.seqEn (pollsTo_straps hu)).trans h.seq)
      hbusy hphase h.pos]
    refine ⟨rfl, rfl, rfl, rfl, nofun, fun b _ hresp => ?_⟩
    have hb : (u.stamped (s.stepStamp tr)).lastResponse.setWidth 8 = b := by
      rw [lastResponse_of_append (s := u.stamped (s.stepStamp tr)) (w := idxWord b) hresp, setWidth_idxWord]
    rw [hb]
    rfl

/-! `PH_SETTLE` -/

theorem step_settle_begin (h : s.AtPhaseStart) (hphase : s.sys.fgPhase = .PH_SETTLE) (hbusy : s.busy = false) :
    step s = .next { s with
      turns := s.comingTurns.tail
      abc := { s.abc with abcState := .ABC_SETTLING }
      out := { s.out with trace := s.out.trace ++ [0x2300#16] } } := by
  have hreq : s.sequencerRequest = some (.op .abcSettle) := by
    simp only [State.sequencerRequest, State.phaseRequests, hphase, h.pos]
    rfl
  have hsettle : StampFreeMeaning .abcSettle :=
    stampFreeMeaning_of_eq (f := fun s => s.setAbc { s.abc with abcState := .ABC_SETTLING }) (fun _ _ => rfl) fun _ => rfl
  rw [step_of_beginning h hbusy hreq hsettle rfl, afterOperation_of_busy (busy_of_abcState (by nofun))]
  rfl

theorem step_settle_finish (h : s.AtPhaseStart) (hphase : s.sys.fgPhase = .PH_SETTLE) (hmicro : s.prog.micro = .idle)
    (hsettling : s.abc.abcState = .ABC_SETTLING) : step s = .next (s.popTurn.settleFinish.toPhase .PH_PRESS) := by
  have hbusy : s.popTurn.settleFinish.busy = false := by simp [State.busy, hmicro]
  rw [step_of_going_on h (busy_of_abcState (by rw [hsettling]; decide)),
    continueOperation_of_settling (s := s.popTurn) hmicro hsettling, afterOperation_of_completed (by exact h.seq) hbusy,
    routeResult_of_settle (by exact hphase), advance_of_settle (by exact hphase) (by exact h.pos)]

/-! `PH_PRESS` -/

/-- R232: `fgButton <- NONE`, and the loop starts again. -/
def State.loopAgain (s : State) : State :=
  (s.setSys { s.sys with fgButton := Idx.NONE }).toPhase s.straps.firstPhase

theorem afterOperation_of_press (hseq : s.straps.seqEn = .sequencer) (hphase : s.sys.fgPhase = .PH_PRESS)
    (hpos : s.prog.seqPos = 0) : s.afterOperation = if s.busy then s else s.loopAgain := by
  cases hbusy : s.busy with
  | true => exact afterOperation_of_busy hbusy
  | false =>
    rw [afterOperation_of_completed hseq hbusy, routeResult_of_press hphase, advance_of_press hphase hpos]
    rfl

/-- Nothing is issued without a button. -/
theorem step_press_none (h : s.AtPhaseStart) (hphase : s.sys.fgPhase = .PH_PRESS) (hbusy : s.busy = false)
    (hbutton : s.sys.fgButton = Idx.NONE) : step s = .next s.popTurn.loopAgain := by
  have hmay : s.popTurn.fgMayStep = true := h.mayStep
  have hidle : s.popTurn.busy = false := hbusy
  have hreq : s.popTurn.sequencerRequest = none := by
    simp only [State.sequencerRequest, State.phaseRequests, State.popTurn_sys, hphase, hbutton, if_true, List.getElem?_nil]
  rw [step_of_fg h.turn]
  simp only [State.foregroundStep, hmay, hidle, State.popTurn_straps, h.seq, hreq, if_true, Bool.false_eq_true, if_false,
    phaseEnd_of_press (s := s.popTurn) hphase]
  rfl

theorem sequencerRequest_of_press (h : s.AtPhaseStart) (hphase : s.sys.fgPhase = .PH_PRESS)
    (hbutton : s.sys.fgButton ≠ Idx.NONE) : s.sequencerRequest = some s.dispatchRequest := by
  simp only [State.sequencerRequest, State.phaseRequests, hphase, hbutton, if_false, h.pos]
  rfl

/-- What `menu.flowkey` or `menu.press` of the button does at `s`, with its word: the dispatch of R232. -/
def State.DispatchesTo (s : State) (w : Word) (u : State) : Prop :=
  s.menu.flowActive = true ∧ exec (.menuFlowkey s.sys.fgButton) s = .next u ∧
      w = (encode (.menuFlowkey s.sys.fgButton)).1 ∨
    (s.menu.flowActive = false ∧ ∃ i, pressOf s.sys.fgButton.toNat = some i ∧ exec i s = .next u ∧ w = (encode i).1) ∨
    s.menu.flowActive = false ∧ ∃ k : Button, 18 ≤ k.val ∧ s.sys.fgButton = BitVec.ofNat 8 k.val ∧ u = s.menuPress k ∧
      w = BitVec.ofNat 16 (0x4000 + k.val)

theorem dispatchesTo_writes {w : Word} (h : s.DispatchesTo w u) : s.MenuWrites u ∧ u.stamp = s.stamp := by
  obtain ⟨-, hexec, -⟩ | ⟨-, i, hi, hexec, -⟩ | ⟨-, k, -, -, rfl, -⟩ := h
  · exact ⟨execMenuFlowkey_menuWrites hexec, stamp_of_exec (menuFlowkey_stampFree _) hexec⟩
  · obtain ⟨hk, hpress⟩ := exec_pressOf hi
    cases (hpress s).symm.trans hexec
    exact ⟨menuPress_menuWrites _ s, menuPress_stamp _ s⟩
  · exact ⟨menuPress_menuWrites k s, menuPress_stamp k s⟩

theorem pressUnlisted_of_button (k : Button) (s : State) : s.pressUnlisted (buttonIdx k) = s.menuPress k := by
  have hidx : (buttonIdx k).toNat = k.val := Nat.mod_eq_of_lt (k.isLt.trans (by decide))
  rw [State.pressUnlisted, dif_pos (hidx ▸ k.isLt)]
  exact congrArg s.menuPress (Fin.ext hidx)

theorem step_of_dispatchesTo {w : Word} (h : s.AtPhaseStart) (hphase : s.sys.fgPhase = .PH_PRESS) (hbusy : s.busy = false)
    (hbutton : s.sys.fgButton ≠ Idx.NONE) (hu : s.DispatchesTo w u) :
    step s = .next (u.stamped (s.stepStamp (s.out.trace ++ [w]))).afterOperation := by
  have hreq := sequencerRequest_of_press h hphase hbutton
  obtain ⟨hflow, hexec, rfl⟩ | ⟨hflow, i, hi, hexec, rfl⟩ | ⟨hflow, k, h18, hk, rfl, rfl⟩ := hu
  · simp only [State.dispatchRequest, hflow, if_true] at hreq
    exact step_of_beginning h hbusy hreq (menuFlowkey_stampFree _) hexec
  · simp only [State.dispatchRequest, hflow, Bool.false_eq_true, if_false, pressRequest, hi] at hreq
    exact step_of_beginning h hbusy hreq (press_stampFree hi) hexec
  · have hidx : (buttonIdx k).toNat = k.val := Nat.mod_eq_of_lt (k.isLt.trans (by decide))
    have hk' : s.sys.fgButton = buttonIdx k := hk
    have hword : BitVec.ofNat 16 (0x4000 + k.val) = pressWord (buttonIdx k) := by rw [pressWord, hidx, wordOf]
    simp only [State.dispatchRequest, hflow, Bool.false_eq_true, if_false, pressRequest, hk', hidx,
      pressOf_eq_none h18] at hreq
    have hpress : (s.popTurn.pushTrace (pressWord (buttonIdx k))).menuPress k =
        (s.menuPress k).stamped (s.stepStamp (s.out.trace ++ [pressWord (buttonIdx k)])) :=
      menuPress_stampFree k (s.stepStamp (s.out.trace ++ [pressWord (buttonIdx k)])) s
    rw [step_of_sequencer h.turn h.mayStep hbusy h.seq hreq, State.issue, pressUnlisted_of_button, hword, hpress]

theorem step_press {w : Word} (h : s.AtPhaseStart) (hphase : s.sys.fgPhase = .PH_PRESS) (hbusy : s.busy = false)
    (hbutton : s.sys.fgButton ≠ Idx.NONE) (hu : s.DispatchesTo w u) :
    ∃ t, step s = .next t ∧ t.menu = u.menu ∧ t.out.events = u.out.events ∧
      t.out.trace = s.out.trace ++ [w] ∧ t.prog.micro = u.prog.micro ∧ t.prog.seqPos = 0 ∧
      t.sys = if u.busy then u.sys else { u.sys with fgButton := 0xFF#8, fgPhase := s.straps.firstPhase } := by
  obtain ⟨hwrites, hstamp⟩ := dispatchesTo_writes hu
  have hstraps : u.straps = s.straps := by
    obtain ⟨_, _, _, _, _, rfl⟩ := hwrites
    rfl
  refine ⟨_, step_of_dispatchesTo h hphase hbusy hbutton hu, ?_⟩
  rw [afterOperation_of_press (s := u.stamped (s.stepStamp _)) ((congrArg Straps.seqEn hstraps).trans h.seq) hphase h.pos]
  cases hwait : u.busy with
  | true =>
    rw [if_pos (by exact hwait), if_pos rfl]
    have hphase' : s.sys.fgPhase = u.sys.fgPhase := (congrArg Stamp.phase hstamp).symm
    refine ⟨rfl, rfl, rfl, rfl, h.pos, ?_⟩
    calc (u.stamped (s.stepStamp (s.out.trace ++ [w]))).sys = { u.sys with fgPhase := s.sys.fgPhase } := rfl
      _ = u.sys := by rw [hphase']
  | false =>
    rw [if_neg (by exact ne_true_of_eq_false hwait), if_neg Bool.false_ne_true, ← hstraps]
    exact ⟨rfl, rfl, rfl, rfl, rfl, rfl⟩

/-! A select that waits -/

/-- R187: the function has returned: the select completes, and unless a poll or a settle is in progress too, which no run
gives, the loop starts again. -/
theorem step_menuWait_cons {r : Idx} {rest : List Idx} (h : s.AtPhaseStart) (hphase : s.sys.fgPhase = .PH_PRESS)
    (hmicro : s.prog.micro = .menuWait) (hret : s.env.ret = r :: rest) :
    ∃ t, step s = .next t ∧ t.env.ret = rest ∧ t.prog.micro = .idle ∧
      t.menu = { s.menu with menuStatus := .secondaryMenuActive, secondaryMenuIndex := 0xFF#8, secondaryChoice := r } ∧
      t.out.events = s.out.events ++ [.SHOW_MENU s.menu.mainMenuIndex .secondaryMenuActive] ∧
      (s.abc.abcState = .ABC_IDLE → t.prog.seqPos = 0 ∧
        t.sys = { s.sys with fgButton := 0xFF#8, fgPhase := s.straps.firstPhase }) := by
  have hstep : step s =
      .next (((s.popTurn.setEnv { s.env with ret := rest }).menuReturned r).setMicro .idle).afterOperation := by
    rw [step_of_going_on h (busy_of_micro (by rw [hmicro]; decide)), continueOperation_of_menuWait (s := s.popTurn) hmicro,
      menuReturn_cons (s := s.popTurn) hret]
    rfl
  refine ⟨_, hstep, ?_⟩
  rw [afterOperation_of_press (by exact h.seq) (by exact hphase) (by exact h.pos)]
  split <;> rename_i hbusy
  · refine ⟨rfl, rfl, rfl, rfl, fun hidle => ?_⟩
    simp [State.busy, hidle] at hbusy
  · exact ⟨rfl, rfl, rfl, rfl, fun _ => ⟨rfl, rfl⟩⟩

/-- R209: it has not. -/
theorem step_menuWait_nil (h : s.AtPhaseStart) (hmicro : s.prog.micro = .menuWait) (hret : s.env.ret = []) :
    step s = .next { s with turns := s.comingTurns.tail } := by
  have hbusy : s.busy = true := busy_of_micro (by rw [hmicro]; decide)
  have hwait : s.popTurn.setMicro .menuWait = s.popTurn := by
    rw [← hmicro]
    rfl
  rw [step_of_going_on h hbusy, continueOperation_of_menuWait (s := s.popTurn) hmicro, menuReturn_nil (s := s.popTurn) hret,
    hwait, afterOperation_of_busy (s := s.popTurn) hbusy]
  rfl

end

/-- Settles O60: the step of each phase, by what the foreground is doing in it. -/
theorem sequencerRoutesTheButton : Obligations.SequencerRoutesTheButton := by
  intro s loop hloop hturn hmay hseq hpos
  have h : s.AtPhaseStart := ⟨hturn, hmay, hseq, hpos⟩
  rw [← firstPhase_eq] at hloop
  subst hloop
  refine ⟨fun u hphase hu => step_poll h hphase hu, step_settle_begin h, fun hphase hmicro hsettling => ?_,
    fun hphase hbusy hbutton => ?_, fun w u hphase hbusy hbutton hu => ?_,
    fun r rest hphase hmicro hret => step_menuWait_cons h hphase hmicro hret,
    fun _ hmicro hret => step_menuWait_nil h hmicro hret⟩
  · exact ⟨_, step_settle_finish h hphase hmicro hsettling, rfl, rfl, rfl, rfl⟩
  · refine ⟨_, step_press_none h hphase hbusy hbutton, rfl, rfl, rfl, ?_⟩
    calc s.popTurn.loopAgain.sys = { s.sys with fgButton := 0xFF#8, fgPhase := s.straps.firstPhase } := rfl
      _ = { s.sys with fgPhase := s.straps.firstPhase } := by rw [← hbutton]
  · refine step_press h hphase hbusy hbutton ?_
    obtain hkey | ⟨hflow, i, hpress | hunlisted⟩ := hu
    · exact .inl hkey
    · exact .inr (.inl ⟨hflow, i, hpress⟩)
    · exact .inr (.inr hunlisted)

end Sys2Proof.Machine
end

section
/-! PROOFS. O44: what a micro-step of a handler writes (R252 to R254). -/

namespace Sys2Proof.Machine

/-- What `px.isr` can do: nothing, where the handler is idle and its entry not enabled (R147), else a micro-step. -/
theorem execPxIsr_cases {c : Chip} {s t : State} (h : execPxIsr c s = .next t) : t = s ∨ s.HandlerMoves c t := by
  by_cases hm : s.handlerMayStep c = true
  · exact .inr (execPxIsr_moves hm h)
  · obtain ⟨hrun, hena⟩ := not_or.1 (mt Bool.or_eq_true_iff.2 hm)
    have hidle : s.chip[c].isrState = .IDLE := not_ne_iff.1 (mt (handlerRunning_iff s c).2 hrun)
    have hstay : execPxIsr c s = .next s := (exec_pxIsr_of_idle hidle).trans (by rw [if_neg hena])
    cases hstay.symm.trans h
    exact .inl rfl

theorem move_pxInitFail {m : PinMap} {c : Chip} {start : Pin} {r r' : ChipRegs} (h : ChipRegs.Move m c start r r') :
    r'.pxInitFail = r.pxInitFail := by
  cases h <;> rfl

/-- Settles O44: the frame of a micro-step, and the moves on the registers of its chip. -/
theorem handlerWritesOnlyItsRegisters : Obligations.HandlerWritesOnlyItsRegisters := by
  intro c s t h
  obtain rfl | hm := execPxIsr_cases h
  · exact ⟨rfl, fun _ _ => rfl, rfl, rfl⟩
  · have hmove := handlerMoves_chip_self hm
    refine ⟨?_, fun d hd => handlerMoves_chip_ne hd hm, move_pxConfigured hmove, move_pxInitFail hmove⟩
    obtain ⟨_, _, _, -, rfl⟩ := hm
    rfl

end Sys2Proof.Machine
end

section
/-! PROOFS. O17: the operations refused outside their contract (R183, R206, R119, R247). -/

namespace Sys2Proof.Machine

theorem menuPress_refused {k : Button} {s : State} (h : s.menu.flowActive = true ∨ s.params.nSw ≤ k.val) :
    s.menuPress k = s.outOfContract := if_pos h

/-- No index that the 5-bit fields cannot name is in `[0, N_SW)` (notes/assumptions/5.md). -/
theorem pressUnlisted_refused {k : Idx} {s : State}
    (h : s.menu.flowActive = true ∨ s.params.nSw ≤ k.toNat ∨ Config.maxSw ≤ k.toNat) :
    s.pressUnlisted k = s.outOfContract := by
  obtain ⟨hk, hpress⟩ | ⟨-, hpress⟩ := pressUnlisted_cases k s
  · rw [hpress]
    exact menuPress_refused (h.imp_right fun hn => hn.resolve_right (not_le.2 hk))
  · exact hpress

/-- Settles O17: each operation's own check, and a press without a row at the accepted state. -/
theorem outOfContractIsRefused : Obligations.OutOfContractIsRefused := by
  refine ⟨fun k i s hi hout => ?_, fun k s => execMenuFlowkey_refused, fun j v s hj hv => ?_,
    fun s k d hacc hk hout => ⟨s.out.trace ++ [pressWord k], ?_⟩⟩
  · obtain ⟨_, hexec⟩ := exec_pressOf hi
    rw [hexec, menuPress_refused hout]
    rfl
  · rw [exec_abcCalload_of_fits hv, if_neg (not_lt.2 hj)]
    rfl
  · have hword : pressWord k = 0x4000#16 ||| k.setWidth 16 := wordOf_eq_or (by decide) (by decide) le_rfl k
    have hhost := accepted_seqEn hacc
    rw [step_of_accepting hacc, ← hword, commandRequest_pressUnlisted hk, State.issue,
      pressUnlisted_refused (s := s.accepted.pushTrace _) hout,
      afterOperation_of_host (s := (s.accepted.pushTrace _).outOfContract) hhost]
    rfl

end Sys2Proof.Machine
end

section
/-! PROOFS. O16: the error bits are sticky (R249). Fault bits are only ever raised: the operations that raise one and those
that leave them are told apart once, in the order of the model. `pxInitFail` is written by `px.init` alone, which sets it. -/

namespace Sys2Proof.Machine

/-! The fault bits -/

/-- From `s` to `t` fault bits were raised, if any changed. -/
def State.RaisesFaults (s t : State) : Prop := ∃ b, t.sys.fault = s.sys.fault ||| b

theorem raisesFaults_of_eq {s t : State} (h : t.sys.fault = s.sys.fault) : s.RaisesFaults t :=
  ⟨0, h.trans BitVec.or_zero.symm⟩

theorem raisesFaults_refl (s : State) : s.RaisesFaults s := raisesFaults_of_eq rfl

theorem raisesFaults_setFault (b : BitVec 3) (s : State) : s.RaisesFaults (s.setFault b) := ⟨b, rfl⟩

theorem raisesFaults_trans {s t u : State} (h : s.RaisesFaults t) (h' : t.RaisesFaults u) : s.RaisesFaults u := by
  obtain ⟨b, hb⟩ := h
  obtain ⟨b', hb'⟩ := h'
  exact ⟨b ||| b', by rw [hb', hb, BitVec.or_assoc]⟩

/-- A raised bit is set, and so is every bit that was. -/
theorem fault_of_raisesFaults {s t : State} (h : s.RaisesFaults t) {b : Fin 3} (hb : s.sys.fault[b] = true) :
    t.sys.fault[b] = true := by
  obtain ⟨x, hx⟩ := h
  rw [hx, Fin.getElem_fin, BitVec.getElem_or]
  exact Bool.or_eq_true_iff.2 (.inl hb)

/-! The classifier -/

/-- R118: a classification without its table raises `F_CAL`. -/
theorem classifyRespond_raisesFaults (v : Sample) (s : State) : s.RaisesFaults (s.classifyRespond v) := by
  unfold State.classifyRespond
  split
  · exact raisesFaults_setFault F_CAL s
  · exact raisesFaults_refl s

theorem sampleOnce_raisesFaults (s : State) : s.RaisesFaults s.sampleOnce := by
  unfold State.sampleOnce; split <;> exact raisesFaults_refl s

theorem pollPass_raisesFaults (s : State) : s.RaisesFaults s.pollPass := by
  cases hadc : s.env.adc with
  | nil => rw [pollPass_nil hadc]; exact raisesFaults_refl s
  | cons raw rest =>
    by_cases hs : s.params.floatSentinel = some raw
    · rw [pollPass_sentinel hadc hs]; exact raisesFaults_refl s
    · rw [pollPass_cons hadc hs]
      split
      · exact classifyRespond_raisesFaults _ _
      · exact raisesFaults_refl s

theorem execAbcClassify_raisesFaults {v : Word} {s t : State} (h : execAbcClassify v s = .next t) : s.RaisesFaults t := by
  unfold execAbcClassify at h
  split at h <;> cases h
  · exact classifyRespond_raisesFaults v s
  · exact raisesFaults_setFault F_CMD s

theorem execAbcCalload_raisesFaults {i : BitVec 5} {v : Word} {s t : State} (h : execAbcCalload i v s = .next t) :
    s.RaisesFaults t := by
  unfold execAbcCalload at h
  split at h
  · split at h <;> cases h
    · exact raisesFaults_refl s
    · exact raisesFaults_setFault F_CONTRACT s
  · cases h; exact raisesFaults_setFault F_CMD s

theorem execAbcWrload_raisesFaults {v : Word} {s t : State} (h : execAbcWrload v s = .next t) : s.RaisesFaults t := by
  unfold execAbcWrload at h
  split at h <;> cases h
  · exact raisesFaults_refl s
  · exact raisesFaults_setFault F_CMD s

/-! The decoder and the port expander -/

theorem execQdecProcess_raisesFaults {e : EncId} {s t : State} (h : execQdecProcess e s = .next t) : s.RaisesFaults t := by
  unfold execQdecProcess at h; split at h <;> cases h <;> exact raisesFaults_refl s

theorem execPxInit_raisesFaults {c : Chip} {s t : State} (h : execPxInit c s = .next t) : s.RaisesFaults t := by
  unfold execPxInit at h; split at h <;> cases h <;> exact raisesFaults_refl s

theorem execPxTake_raisesFaults {s t : State} (h : execPxTake s = .next t) : s.RaisesFaults t := by
  unfold execPxTake at h; split at h <;> cases h <;> exact raisesFaults_refl s

/-- R254: a handler leaves the system registers. -/
theorem execPxIsr_sys {c : Chip} {s t : State} (h : execPxIsr c s = .next t) : t.sys = s.sys := by
  obtain ⟨hframe, -⟩ := handlerWritesOnlyItsRegisters c s t h
  rw [hframe]

/-! The menu: a press raises `F_CONTRACT` where it is refused, and its action leaves the system registers -/

theorem promote_sys (s : State) : s.promote.sys = s.sys := by
  unfold State.promote; split <;> rfl

theorem menuReturn_sys (s : State) : s.menuReturn.sys = s.sys := by
  unfold State.menuReturn; split <;> rfl

theorem select_sys (s : State) : s.select.sys = s.sys := by
  unfold State.select
  split
  · rfl
  · exact menuReturn_sys _

theorem navigate_sys (m : Idx) (s : State) : (s.navigate m).sys = s.sys := by
  simp only [State.navigate]; split <;> rfl

theorem mapFlow_sys (s : State) : s.mapFlow.sys = s.sys := by
  unfold State.mapFlow; split <;> rfl

theorem runAction_sys (a : Action) (s : State) : (s.runAction a).sys = s.sys := by
  cases a
  case SELECT => exact select_sys s
  case MENU_UP => exact navigate_sys _ s
  case MENU_DOWN => exact navigate_sys _ s
  case MAP_FLOW => exact mapFlow_sys s
  all_goals rfl

theorem menuPress_raisesFaults (k : Button) (s : State) : s.RaisesFaults (s.menuPress k) := by
  obtain ⟨-, h⟩ | ⟨-, -, -, -, h⟩ | ⟨-, -, -, h⟩ := menuPress_cases k s <;> rw [h]
  · exact raisesFaults_setFault F_CONTRACT s
  · exact raisesFaults_refl s
  · exact raisesFaults_of_eq (by rw [runAction_sys, promote_sys])

theorem pressUnlisted_raisesFaults (k : Idx) (s : State) : s.RaisesFaults (s.pressUnlisted k) := by
  obtain ⟨hk, h⟩ | ⟨-, h⟩ := pressUnlisted_cases k s <;> rw [h]
  · exact menuPress_raisesFaults _ s
  · exact raisesFaults_setFault F_CONTRACT s

theorem execMenuFlowkey_raisesFaults {k : Idx} {s t : State} (h : execMenuFlowkey k s = .next t) : s.RaisesFaults t := by
  unfold execMenuFlowkey at h
  split at h
  · split at h <;> cases h <;> exact raisesFaults_refl s
  · cases h; exact raisesFaults_setFault F_CONTRACT s

/-! Every operation, and what the sequencer does after it -/

theorem exec_raisesFaults {i : Instr} {s t : State} (h : exec i s = .next t) : s.RaisesFaults t := by
  cases i with
  | cli | sei | qdecUpdate | abcSettle => cases h; exact raisesFaults_refl s
  | qdecProcess => exact execQdecProcess_raisesFaults h
  | abcPoll => cases h; exact pollPass_raisesFaults _
  | abcSample => cases h; exact sampleOnce_raisesFaults s
  | abcClassify => exact execAbcClassify_raisesFaults h
  | abcCalload => exact execAbcCalload_raisesFaults h
  | abcWrload => exact execAbcWrload_raisesFaults h
  | pxInit => exact execPxInit_raisesFaults h
  | pxIsr => exact raisesFaults_of_eq (by rw [execPxIsr_sys h])
  | pxTake => exact execPxTake_raisesFaults h
  | menuFlowkey => exact execMenuFlowkey_raisesFaults h
  | menuPress0 | menuPress1 | menuPress2 | menuPress3 | menuPress4 | menuPress5 | menuPress6 | menuPress7 | menuPress8
  | menuPress9 | menuPress10 | menuPress11 | menuPress12 | menuPress13 | menuPress14 | menuPress15 | menuPress16
  | menuPress17 => cases h; exact menuPress_raisesFaults _ s

theorem continueOperation_raisesFaults (s : State) : s.RaisesFaults s.continueOperation := by
  unfold State.continueOperation
  split
  · exact raisesFaults_refl s
  · exact raisesFaults_refl s
  · exact sampleOnce_raisesFaults s
  · exact raisesFaults_of_eq (by rw [menuReturn_sys])
  · split
    · exact pollPass_raisesFaults s
    · exact raisesFaults_refl s
    · exact raisesFaults_refl s

theorem phaseEnd_fault (s : State) : s.phaseEnd.sys.fault = s.sys.fault := by
  unfold State.phaseEnd; split <;> rfl

theorem routeResult_fault (s : State) : s.routeResult.sys.fault = s.sys.fault := by
  unfold State.routeResult
  split
  · split <;> rfl
  · rfl
  · split
    · rfl
    · split <;> rfl
  all_goals rfl

theorem advance_fault (s : State) : s.advance.sys.fault = s.sys.fault := by
  unfold State.advance
  split
  · rfl
  · exact phaseEnd_fault s

theorem afterOperation_fault (s : State) : s.afterOperation.sys.fault = s.sys.fault := by
  unfold State.afterOperation
  split
  · rfl
  · split
    · rfl
    · exact (advance_fault _).trans (routeResult_fault s)

theorem raisesFaults_afterOperation {s t : State} (h : s.RaisesFaults t) : s.RaisesFaults t.afterOperation :=
  raisesFaults_trans h (raisesFaults_of_eq (afterOperation_fault t))

/-! The agents' steps -/

theorem issue_raisesFaults {q : Request} {s t : State} (h : s.issue q = .next t) : s.RaisesFaults t := by
  obtain ⟨i, u, -, hu, rfl⟩ | ⟨k, -, rfl⟩ | ⟨-, rfl⟩ := issue_cases h
  · exact raisesFaults_afterOperation (exec_raisesFaults (s := s.pushTrace _) hu)
  · exact raisesFaults_afterOperation (pressUnlisted_raisesFaults k (s.pushTrace _))
  · exact raisesFaults_setFault F_CMD s

theorem foregroundStep_raisesFaults {s t : State} (h : s.foregroundStep = .next t) : s.RaisesFaults t := by
  obtain rfl | ⟨-, -, rfl⟩ | ⟨-, -, -, w, d, rest, -, hq⟩ | ⟨-, -, -, q, -, hq⟩ | ⟨-, -, -, -, rfl⟩ :=
    foregroundStep_cases h
  · exact raisesFaults_refl _
  · exact raisesFaults_afterOperation (continueOperation_raisesFaults s)
  · exact issue_raisesFaults (s := s.acceptCommand) hq
  · exact issue_raisesFaults hq
  · exact raisesFaults_of_eq (phaseEnd_fault s)

/-- R249: the foreground alone writes fault bits, and it only raises them; the rest is reset. -/
theorem step_raisesFaults {s t : State} (h : step s = .next t) (hr : s.nextTurn ≠ .env .reset) : s.RaisesFaults t := by
  obtain ⟨-, hf⟩ | ⟨c, p, -, hi⟩ | ⟨e, hn, rfl⟩ := step_cases h
  · exact foregroundStep_raisesFaults (s := s.popTurn) hf
  · obtain rfl | ⟨-, _, _, _, _, -, rfl⟩ := handlerStep_moves hi
    · exact raisesFaults_refl s
    · exact raisesFaults_refl s
  · have he : e ≠ .reset := fun he => hr (he ▸ hn)
    exact raisesFaults_of_eq (by rw [envStep_sys he, State.popTurn_sys])

/-! `pxInitFail` -/

/-- From `s` to `t` no chip's `pxInitFail` was cleared. -/
def State.KeepsInitFail (s t : State) : Prop := ∀ c : Chip, s.chip[c].pxInitFail = true → t.chip[c].pxInitFail = true

theorem keepsInitFail_of_eq {s t : State} (h : t.chip = s.chip) : s.KeepsInitFail t := by
  intro c hc
  rwa [h]

/-- A write to one chip clears no other chip's bit. -/
theorem keepsInitFail_of_set {s t : State} {c : Chip} {r : ChipRegs} (ht : t.chip = s.chip.set c r)
    (hr : s.chip[c].pxInitFail = true → r.pxInitFail = true) : s.KeepsInitFail t := by
  intro d hd
  rw [ht]
  by_cases hdc : d = c
  · subst hdc
    rw [chip_set_self]
    exact hr hd
  · rwa [chip_set_ne _ hdc]

/-- R244: `px.init` sets the bit of a silent chip, and leaves that of one that acknowledges. -/
theorem execPxInit_keepsInitFail {c : Chip} {s t : State} (h : execPxInit c s = .next t) : s.KeepsInitFail t := by
  unfold execPxInit at h
  split at h <;> cases h
  · exact keepsInitFail_of_set rfl id
  · exact keepsInitFail_of_set rfl fun _ => rfl

theorem exec_keepsInitFail {i : Instr} {s t : State} (hisr : ∀ c, i ≠ .pxIsr c) (h : exec i s = .next t) :
    s.KeepsInitFail t := by
  by_cases hinit : ∃ c, i = .pxInit c
  · obtain ⟨c, rfl⟩ := hinit
    exact execPxInit_keepsInitFail h
  · exact keepsInitFail_of_eq (exec_chip (not_exists.1 hinit) hisr h)

theorem issue_keepsInitFail {q : Request} {s t : State} (hq : NoIsr q) (h : s.issue q = .next t) : s.KeepsInitFail t := by
  obtain ⟨i, u, rfl, hu, rfl⟩ | ⟨k, -, rfl⟩ | ⟨-, rfl⟩ := issue_cases h
  · intro c hc
    rw [afterOperation_chip]
    exact exec_keepsInitFail (fun c hi => hq c (hi ▸ rfl)) hu c hc
  · exact keepsInitFail_of_eq (by rw [afterOperation_chip, pressUnlisted_chip, State.pushTrace_chip])
  · exact keepsInitFail_of_eq rfl

theorem foregroundStep_keepsInitFail {s t : State} (h : s.foregroundStep = .next t) : s.KeepsInitFail t := by
  obtain rfl | ⟨-, -, rfl⟩ | ⟨-, -, -, w, d, rest, -, hq⟩ | ⟨-, -, -, q, hs, hq⟩ | ⟨-, -, -, -, rfl⟩ :=
    foregroundStep_cases h
  · exact keepsInitFail_of_eq rfl
  · exact keepsInitFail_of_eq (by rw [afterOperation_chip, continueOperation_chip])
  · exact issue_keepsInitFail (s := s.acceptCommand) (noIsr_commandRequest _ w d) hq
  · exact issue_keepsInitFail (noIsr_sequencerRequest hs) hq
  · exact keepsInitFail_of_eq (phaseEnd_chip s)

theorem handlerStep_keepsInitFail {c : Chip} {p : Pin} {s t : State} (h : s.handlerStep c p = .next t) :
    s.KeepsInitFail t := by
  obtain rfl | ⟨-, _, _, _, _, hmove, rfl⟩ := handlerStep_moves h
  · exact keepsInitFail_of_eq rfl
  · exact keepsInitFail_of_set rfl fun hc => (move_pxInitFail hmove).trans hc

theorem detectChange_pxInitFail (r : ChipRegs) (p : Pin) : (r.detectChange p).pxInitFail = r.pxInitFail := by
  unfold ChipRegs.detectChange; split <;> rfl

theorem envStep_keepsInitFail {e : EnvStep} (he : e ≠ .reset) (s : State) : s.KeepsInitFail (s.envStep e) := by
  cases e with
  | reset => exact absurd rfl he
  | pin c p v =>
    change s.KeepsInitFail (s.envPin c p v)
    unfold State.envPin
    split
    · exact keepsInitFail_of_eq rfl
    · exact keepsInitFail_of_set rfl fun hc => (detectChange_pxInitFail _ p).trans hc
  | adc | ack | menufn | cal | wiggle | command | straps => exact keepsInitFail_of_eq rfl

theorem step_keepsInitFail {s t : State} (h : step s = .next t) (hr : s.nextTurn ≠ .env .reset) : s.KeepsInitFail t := by
  obtain ⟨-, hf⟩ | ⟨c, p, -, hi⟩ | ⟨e, hn, rfl⟩ := step_cases h
  · exact foregroundStep_keepsInitFail (s := s.popTurn) hf
  · exact handlerStep_keepsInitFail (s := s.popTurn) hi
  · have he : e ≠ .reset := fun he => hr (he ▸ hn)
    exact envStep_keepsInitFail he s.popTurn

/-- Settles O16: a step that is not reset raises fault bits and clears no chip's `pxInitFail`. -/
theorem faultsAreSticky : Obligations.FaultsAreSticky :=
  fun _ _ h hr => ⟨fun _ => fault_of_raisesFaults (step_raisesFaults h hr), step_keepsInitFail h hr⟩

end Sys2Proof.Machine
end

section
/-! PROOFS. O10 and O58: reset (R270) and the boot sequence that the sequencer runs after it (R272, R231). The boot is one
operation a step; loading the table is the induction, and what follows it is written out for each mode. -/

namespace Sys2Proof.Machine

/-! Reset -/

/-- Settles O10: the step is `resetBlock`, whose registers are those of `State.atReset`. -/
theorem resetGivesTheResetValues : Obligations.ResetGivesTheResetValues := by
  intro s hreset
  have hchip (c : Chip) : s.popTurn.resetBlock.chip[c] = ChipRegs.reset := atReset_chip s.params s.env c
  refine ⟨s.popTurn.resetBlock, step_of_env hreset, atReset_enc s.params s.env,
    ⟨rfl, rfl, rfl, rfl, fun i => Vector.getElem_replicate i.isLt, rfl⟩, rfl, rfl, fun c => ?_, rfl, ⟨rfl, rfl, rfl, rfl⟩,
    rfl, rfl, rfl, rfl, rfl⟩
  rw [hchip]
  exact ⟨rfl, rfl, rfl, rfl, rfl⟩

/-! The operations of `PH_BOOT` in their order -/

/-- What the boot sequence issues after the table (R272). -/
def State.bootTail (s : State) : List Request :=
  .op (.abcWrload s.env.wiggleStore) ::
    match s.straps.acqMode with
    | .EXPANDER => [.op (.pxInit 0), .op (.pxInit 1), .op .sei]
    | .ANALOG => []

theorem bootTail_of_analog {s : State} (h : s.straps.acqMode = .ANALOG) :
    s.bootTail = [.op (.abcWrload s.env.wiggleStore)] := by
  simp only [State.bootTail, h]

theorem bootTail_of_expander {s : State} (h : s.straps.acqMode = .EXPANDER) :
    s.bootTail = [.op (.abcWrload s.env.wiggleStore), .op (.pxInit 0), .op (.pxInit 1), .op .sei] := by
  simp only [State.bootTail, h]

theorem bootRequests_eq_append (s : State) : s.bootRequests =
    ((buttons s.params.nSw).map fun i => .op (.abcCalload (BitVec.ofNat 5 i.val) s.env.calStore[i])) ++ s.bootTail := by
  rw [State.bootRequests, List.append_assoc]
  rfl

theorem length_buttons {n : Nat} (hn : n ≤ 32) : (buttons n).length = n := by
  rw [buttons, List.length_take, List.length_finRange, min_eq_left hn]

theorem getElem?_buttons {n : Nat} {i : Button} (hi : i.val < n) : (buttons n)[i.val]? = some i := by
  rw [buttons, List.getElem?_take_of_lt hi, List.getElem?_eq_getElem (by simp), List.getElem_finRange]
  rfl

/-- The first `N_SW` operations load the table, one entry each. -/
theorem bootRequests_of_lt {s : State} (hn : s.params.nSw ≤ 32) {i : Button} (hi : i.val < s.params.nSw) :
    s.bootRequests[i.val]? = some (.op (.abcCalload (BitVec.ofNat 5 i.val) s.env.calStore[i])) := by
  rw [bootRequests_eq_append, List.getElem?_append_left (by rwa [List.length_map, length_buttons hn]),
    List.getElem?_map, getElem?_buttons hi]
  rfl

theorem bootRequests_add {s : State} (hn : s.params.nSw ≤ 32) (j : Nat) :
    s.bootRequests[s.params.nSw + j]? = s.bootTail[j]? := by
  rw [bootRequests_eq_append, List.getElem?_append_right (by rw [List.length_map, length_buttons hn]; omega),
    List.length_map, length_buttons hn, Nat.add_sub_cancel_left]

theorem length_bootRequests {s : State} (hn : s.params.nSw ≤ 32) :
    s.bootRequests.length = s.params.nSw + s.bootTail.length := by
  rw [bootRequests_eq_append, List.length_append, List.length_map, length_buttons hn]

/-! One operation of `PH_BOOT` -/

section
variable {s u : State} {pos n : Nat} {i : Instr}

theorem sequencerRequest_of_boot (hphase : s.sys.fgPhase = .PH_BOOT) (hpos : s.prog.seqPos = pos) :
    s.sequencerRequest = s.bootRequests[pos]? := by
  simp only [State.sequencerRequest, State.phaseRequests, hphase, hpos]

/-- No result of the boot sequence is routed. -/
theorem routeResult_of_boot (hphase : s.sys.fgPhase = .PH_BOOT) : s.routeResult = s := by
  simp only [State.routeResult, hphase]

theorem phaseLength_of_boot (hphase : s.sys.fgPhase = .PH_BOOT) : s.phaseLength = s.bootRequests.length := by
  simp only [State.phaseLength, hphase]

/-- R231: the boot ends in the first phase of the loop. -/
theorem phaseEnd_of_boot (hphase : s.sys.fgPhase = .PH_BOOT) : s.phaseEnd = s.toPhase s.straps.firstPhase := by
  simp only [State.phaseEnd, hphase]

/-- The sequencer stands at operation `pos`. -/
def State.atPlace (pos : Nat) (s : State) : State := s.setProg { s.prog with seqPos := pos }

theorem State.Stands.atPlace {p : FgPhase} (h : s.Stands p pos n) (pos' : Nat) : (s.atPlace pos').Stands p pos' n := by
  obtain ⟨-, -, -, hturns⟩ := h.runs
  exact h.of_footing rfl hturns h.phase rfl

/-- A boot operation with another one after it. -/
theorem step_of_boot_lt (h : s.Stands .PH_BOOT pos (n + 1)) (hreq : s.bootRequests[pos]? = some (.op i))
    (hexec : exec i (s.began (encode i).1 n) = .next u) (hu : u.Stands .PH_BOOT pos n)
    (hkept : u.bootRequests = s.bootRequests) (hlt : pos + 1 < s.bootRequests.length) :
    step s = .next (u.atPlace (pos + 1)) := by
  rw [step_of_stands h ((sequencerRequest_of_boot h.phase h.pos).trans hreq) hexec hu, routeResult_of_boot hu.phase,
    advance_of_lt (by rwa [phaseLength_of_boot hu.phase, hu.pos, hkept]), hu.pos]
  rfl

/-- The last boot operation. -/
theorem step_of_boot_last (h : s.Stands .PH_BOOT pos (n + 1)) (hreq : s.bootRequests[pos]? = some (.op i))
    (hexec : exec i (s.began (encode i).1 n) = .next u) (hu : u.Stands .PH_BOOT pos n)
    (hkept : u.bootRequests = s.bootRequests) (hge : s.bootRequests.length ≤ pos + 1) :
    step s = .next (u.toPhase u.straps.firstPhase) := by
  rw [step_of_stands h ((sequencerRequest_of_boot h.phase h.pos).trans hreq) hexec hu, routeResult_of_boot hu.phase,
    advance_of_last (by rwa [phaseLength_of_boot hu.phase, hu.pos, hkept]), phaseEnd_of_boot hu.phase]

end

/-! The table -/

/-- From `s` to `t` the entries below `k` have been loaded from the store, and what the rest of the boot reads is kept. -/
structure State.LoadedBelow (k : Nat) (s t : State) : Prop where
  cal : ∀ i : Button, i.val < k → t.abc.cal[i] = s.env.calStore[i] ∧ t.abc.calValid[i] = true
  sys : t.sys = s.sys
  chip : t.chip = s.chip
  events : t.out.events = s.out.events
  env : t.env = s.env
  params : t.params = s.params
  straps : t.straps = s.straps

theorem loadedBelow_zero (s : State) : s.LoadedBelow 0 s where
  cal _ hi := absurd hi (Nat.not_lt_zero _)
  sys := rfl
  chip := rfl
  events := rfl
  env := rfl
  params := rfl
  straps := rfl

/-- The state in which the boot's load of entry `i` completes, with `n` turns to come. -/
def State.entryLoaded (i : Button) (n : Nat) (s : State) : State :=
  let began := s.began (encode (.abcCalload (BitVec.ofNat 5 i.val) s.env.calStore[i])).1 n
  began.setAbc (s.abc.loadCal i s.env.calStore[i])

theorem State.LoadedBelow.succ {s t : State} {i : Button} (h : s.LoadedBelow i.val t) (n : Nat) :
    s.LoadedBelow (i.val + 1) ((t.entryLoaded i n).atPlace (i.val + 1)) where
  cal j hj := by
    change (t.abc.loadCal i t.env.calStore[i]).cal[j] = _ ∧ (t.abc.loadCal i t.env.calStore[i]).calValid[j] = true
    rw [h.env]
    by_cases hji : j = i
    · rw [hji]
      exact loadCal_self ..
    · obtain ⟨hcal, hvalid⟩ := loadCal_ne t.abc hji s.env.calStore[i]
      rw [hcal, hvalid]
      exact h.cal j (by have := Fin.val_ne_of_ne hji; omega)
  sys := h.sys
  chip := h.chip
  events := h.events
  env := h.env
  params := h.params
  straps := h.straps

theorem exec_calload_of_began {i : Button} {s : State} (hi : i.val < s.params.nSw)
    (hfit : SampleFits s.params.adcW s.env.calStore[i]) (n : Nat) :
    exec (.abcCalload (BitVec.ofNat 5 i.val) s.env.calStore[i])
      (s.began (encode (.abcCalload (BitVec.ofNat 5 i.val) s.env.calStore[i])).1 n) = .next (s.entryLoaded i n) := by
  have hidx : (BitVec.ofNat 5 i.val).toFin = i := by clear hfit hi; revert i; decide
  have hval : (BitVec.ofNat 5 i.val).toNat = i.val := congrArg Fin.val hidx
  rw [exec_abcCalload_of_fits (s := s.began _ n) hfit, hval, if_pos (by exact hi), hidx]
  rfl

theorem State.Stands.entryLoaded {s : State} {pos n : Nat} (h : s.Stands .PH_BOOT pos (n + 1)) (i : Button) :
    (s.entryLoaded i n).Stands .PH_BOOT pos n := h.of_footing rfl rfl h.phase h.pos

theorem step_of_entry {s : State} {i : Button} {n : Nat} (h : s.Stands .PH_BOOT i.val (n + 1)) (hn : s.params.nSw ≤ 32)
    (hi : i.val < s.params.nSw) (hfit : SampleFits s.params.adcW s.env.calStore[i]) :
    step s = .next ((s.entryLoaded i n).atPlace (i.val + 1)) := by
  refine step_of_boot_lt h (bootRequests_of_lt hn hi) (exec_calload_of_began hi hfit n) (h.entryLoaded i) rfl ?_
  rw [length_bootRequests hn, State.bootTail, List.length_cons]
  omega

/-- R272: the first operations of the boot load the first entries, one step each. -/
theorem run_table {s : State} {k n : Nat} (hn : s.params.nSw ≤ 32)
    (hfit : ∀ i : Button, SampleFits s.params.adcW s.env.calStore[i]) (hk : k ≤ s.params.nSw)
    (h : s.Stands .PH_BOOT 0 (k + n)) :
    ∃ t : State, core.run k s = .next t ∧ t.Stands .PH_BOOT k n ∧ s.LoadedBelow k t := by
  induction k generalizing n with
  | zero => exact ⟨s, rfl, Nat.zero_add n ▸ h, loadedBelow_zero s⟩
  | succ k ih =>
    obtain ⟨t, hrun, hstands, hloaded⟩ := ih (n := n + 1) (Nat.le_of_succ_le hk)
      (by rwa [show k + (n + 1) = k + 1 + n by omega])
    obtain ⟨i, rfl⟩ : ∃ i : Button, i.val = k := ⟨⟨k, hk.trans hn⟩, rfl⟩
    have hstep : step t = .next ((t.entryLoaded i n).atPlace (i.val + 1)) :=
      step_of_entry hstands (by rwa [hloaded.params]) (by rwa [hloaded.params])
        (by rw [hloaded.params, hloaded.env]; exact hfit i)
    exact ⟨_, (run_add_of_next hrun 1).trans (run_succ_of_next hstep 0), (hstands.entryLoaded i).atPlace _,
      hloaded.succ n⟩

/-! The tolerance -/

/-- The state in which the boot's load of the tolerance completes, with `n` turns to come. -/
def State.toleranceLoaded (n : Nat) (s : State) : State :=
  (s.began 0x2500#16 n).setAbc { s.abc with wiggleRoom := s.env.wiggleStore, wrValid := true }

theorem exec_wrload_of_began {s : State} (hfit : SampleFits s.params.adcW s.env.wiggleStore) (n : Nat) :
    exec (.abcWrload s.env.wiggleStore) (s.began 0x2500#16 n) = .next (s.toleranceLoaded n) := if_pos hfit

theorem State.Stands.toleranceLoaded {s : State} {pos n : Nat} (h : s.Stands .PH_BOOT pos (n + 1)) :
    (s.toleranceLoaded n).Stands .PH_BOOT pos n := h.of_footing rfl rfl h.phase h.pos

/-! The chips -/

/-- The registers of a chip after `px.init`, by its acknowledge (R142, R244). -/
def ChipRegs.initialised (ack : Bool) (r : ChipRegs) : ChipRegs :=
  if ack then { r with pxConfigured := true, pend := 0, irqLatch := false }
  else { r with pxConfigured := false, pxInitFail := true }

/-- The announcement of a chip that does not acknowledge (R244). -/
def initEvents (c : Chip) (ack : Bool) : List Event := if ack then [] else [.INIT_FAIL c]

/-- The state in which the boot's `px.init c` completes, with `n` turns to come. -/
def State.chipInitialised (c : Chip) (n : Nat) (s : State) : State :=
  let began := s.began (encode (.pxInit c)).1 n
  { began with
    chip := s.chip.set c (s.chip[c].initialised s.env.ack[c])
    out := { began.out with events := s.out.events ++ initEvents c s.env.ack[c] } }

theorem exec_pxInit_of_began (c : Chip) (s : State) (n : Nat) :
    exec (.pxInit c) (s.began (encode (.pxInit c)).1 n) = .next (s.chipInitialised c n) := by
  unfold State.chipInitialised
  cases hack : s.env.ack[c] with
  | true =>
    rw [initEvents, if_pos rfl, List.append_nil]
    exact execPxInit_of_ack (s := s.began _ n) hack
  | false => exact execPxInit_of_silent (s := s.began _ n) hack

theorem State.Stands.chipInitialised {s : State} {pos n : Nat} (h : s.Stands .PH_BOOT pos (n + 1)) (c : Chip) :
    (s.chipInitialised c n).Stands .PH_BOOT pos n := by
  obtain ⟨⟨hseq, hmay, hbusy, -⟩, hphase, hpos⟩ := h
  refine ⟨⟨hseq, (fgMayStep_iff _).2 fun d => ?_, hbusy, rfl⟩, hphase, hpos⟩
  have hkept := execPxInit_isrState (exec_pxInit_of_began c s n) d
  exact hkept.trans ((fgMayStep_iff s).1 hmay d)

/-! After the table -/

section
variable {s : State}

/-- In `ANALOG` mode the tolerance is the last value loaded. -/
theorem run_bootTail_of_analog (hmode : s.straps.acqMode = .ANALOG) (hn : s.params.nSw ≤ 32)
    (hfit : SampleFits s.params.adcW s.env.wiggleStore) (h : s.Stands .PH_BOOT s.params.nSw 1) :
    core.run 1 s = .next ((s.toleranceLoaded 0).toPhase .PH_POLL) := by
  have hreq : s.bootRequests[s.params.nSw]? = some (.op (.abcWrload s.env.wiggleStore)) := bootRequests_add hn 0
  have hlen : s.bootRequests.length ≤ s.params.nSw + 1 := by
    rw [length_bootRequests hn, bootTail_of_analog hmode, List.length_singleton]
  have hfirst : (s.toleranceLoaded 0).straps.firstPhase = .PH_POLL :=
    (firstPhase_eq _).trans (if_neg (ne_of_eq_of_ne hmode (by decide)))
  rw [run_succ_of_next (step_of_boot_last h hreq (exec_wrload_of_began hfit 0) h.toleranceLoaded rfl hlen), hfirst]
  rfl

/-- The state before the last operation of the boot in `EXPANDER` mode, from the state with the table loaded. -/
def State.chipsBooted (s : State) : State :=
  let loaded := (s.toleranceLoaded 3).atPlace (s.params.nSw + 1)
  let first := (loaded.chipInitialised 0 2).atPlace (s.params.nSw + 2)
  (first.chipInitialised 1 1).atPlace (s.params.nSw + 3)

/-- The state after the boot in `EXPANDER` mode, from the state with the table loaded. -/
def State.expanderBooted (s : State) : State :=
  ((s.chipsBooted.began 0x0200#16 0).setIrqEnable true).toPhase .PH_TAKE

/-- In `EXPANDER` mode four operations follow the table. -/
theorem bootRequests_of_expander (hmode : s.straps.acqMode = .EXPANDER) (hn : s.params.nSw ≤ 32) :
    s.bootRequests.length = s.params.nSw + 4 ∧ ∀ j, s.bootRequests[s.params.nSw + j]? =
      [.op (.abcWrload s.env.wiggleStore), .op (.pxInit 0), .op (.pxInit 1), .op .sei][j]? := by
  rw [length_bootRequests hn, ← bootTail_of_expander hmode]
  exact ⟨by rw [bootTail_of_expander hmode]; rfl, bootRequests_add hn⟩

/-- In `EXPANDER` mode both chips are initialised after the load of the tolerance. -/
theorem run_chips (hmode : s.straps.acqMode = .EXPANDER) (hn : s.params.nSw ≤ 32)
    (hfit : SampleFits s.params.adcW s.env.wiggleStore) (h : s.Stands .PH_BOOT s.params.nSw 4) :
    core.run 3 s = .next s.chipsBooted ∧ s.chipsBooted.Stands .PH_BOOT (s.params.nSw + 3) 1 := by
  obtain ⟨hlen, hreq⟩ := bootRequests_of_expander hmode hn
  have hlt (j : Nat) (hj : j < 3) : s.params.nSw + j + 1 < s.bootRequests.length := by omega
  have h1 := h.toleranceLoaded.atPlace (s.params.nSw + 1)
  have h2 := (h1.chipInitialised 0).atPlace (s.params.nSw + 2)
  have hwrload := step_of_boot_lt h (hreq 0) (exec_wrload_of_began hfit 3) h.toleranceLoaded rfl (hlt 0 (by decide))
  have hinit0 := step_of_boot_lt h1 (hreq 1) (exec_pxInit_of_began 0 _ 2) (h1.chipInitialised 0) rfl (hlt 1 (by decide))
  have hinit1 := step_of_boot_lt h2 (hreq 2) (exec_pxInit_of_began 1 _ 1) (h2.chipInitialised 1) rfl (hlt 2 (by decide))
  rw [run_succ_of_next hwrload, run_succ_of_next hinit0, run_succ_of_next hinit1]
  exact ⟨rfl, (h2.chipInitialised 1).atPlace (s.params.nSw + 3)⟩

/-- In `EXPANDER` mode `sei` is the last operation. -/
theorem run_bootTail_of_expander (hmode : s.straps.acqMode = .EXPANDER) (hn : s.params.nSw ≤ 32)
    (hfit : SampleFits s.params.adcW s.env.wiggleStore) (h : s.Stands .PH_BOOT s.params.nSw 4) :
    core.run 4 s = .next s.expanderBooted := by
  obtain ⟨hrun, hlast⟩ := run_chips hmode hn hfit h
  obtain ⟨hlen, hreq⟩ := bootRequests_of_expander hmode hn
  have hsei : State.Stands .PH_BOOT (s.params.nSw + 3) 0 ((s.chipsBooted.began 0x0200#16 0).setIrqEnable true) :=
    hlast.of_footing rfl rfl hlast.phase hlast.pos
  have hstep := step_of_boot_last (u := (s.chipsBooted.began 0x0200#16 0).setIrqEnable true) hlast (hreq 3) rfl hsei rfl
    hlen.le
  have hfirst : ((s.chipsBooted.began 0x0200#16 0).setIrqEnable true).straps.firstPhase = .PH_TAKE :=
    (firstPhase_eq _).trans (if_pos hmode)
  rw [hfirst] at hstep
  exact (run_add_of_next hrun 1).trans (run_succ_of_next hstep 0)

theorem expanderBooted_chip (s : State) :
    ∀ c : Chip, s.expanderBooted.chip[c] = s.chip[c].initialised s.env.ack[c] := by
  have hne : (1 : Chip) ≠ 0 := by decide
  refine Fin.forall_fin_two.2 ⟨?_, ?_⟩
  · exact (chip_set_ne _ hne.symm _).trans (chip_set_self s.chip 0 _)
  · exact (chip_set_self _ 1 _).trans (congrArg (ChipRegs.initialised s.env.ack[1]) (chip_set_ne s.chip hne _))

/-- The announcements of both chips, in order. -/
theorem expanderBooted_events (s : State) : s.expanderBooted.out.events = s.out.events ++
    ((List.finRange 2).filter fun c => !s.env.ack[c]).map fun c => Event.INIT_FAIL c := by
  have hsaid : s.expanderBooted.out.events =
      s.out.events ++ initEvents 0 s.env.ack[0] ++ initEvents 1 s.env.ack[1] := rfl
  have hchips : List.finRange 2 = [0, 1] := by decide
  rw [hsaid, List.append_assoc, hchips]
  cases h0 : s.env.ack[0] <;> cases h1 : s.env.ack[1] <;> simp [initEvents, h0, h1]

end

/-- Settles O58: the table by the induction, then what each mode issues after it. -/
theorem sequencerBootLoadsTheCalibration : Obligations.SequencerBootLoadsTheCalibration := by
  intro s n hsteps hruns hn hcal hwiggle hphase hpos
  obtain ⟨rest, rfl, hrest⟩ : ∃ rest, n = s.params.nSw + rest ∧ rest = if s.straps.acqMode = .EXPANDER then 4 else 1 :=
    ⟨_, by rw [hsteps]; split <;> rfl, rfl⟩
  obtain ⟨t, hrun, hstands, htable, hsys, hchip, hevents, henv, hparams, hstraps⟩ :=
    run_table hn hcal le_rfl ⟨hruns, hphase, hpos⟩
  have hwiggle' : SampleFits t.params.adcW t.env.wiggleStore := by rwa [hparams, henv]
  rw [← hparams] at hn hstands
  rw [← hstraps] at hrest ⊢
  cases hmode : t.straps.acqMode with
  | ANALOG =>
    obtain rfl : rest = 1 := hrest.trans (if_neg (ne_of_eq_of_ne hmode (by decide)))
    refine ⟨(t.toleranceLoaded 0).toPhase .PH_POLL,
      (run_add_of_next hrun 1).trans (run_bootTail_of_analog hmode hn hwiggle' hstands), htable,
      congrArg EnvInputs.wiggleStore henv, rfl, rfl, fun _ => ⟨?_, hchip, hevents⟩, nofun⟩
    exact congrArg (fun r : SysRegs => { r with fgPhase := .PH_POLL }) hsys
  | EXPANDER =>
    obtain rfl : rest = 4 := hrest.trans (if_pos hmode)
    refine ⟨t.expanderBooted, (run_add_of_next hrun 4).trans (run_bootTail_of_expander hmode hn hwiggle' hstands), htable,
      congrArg EnvInputs.wiggleStore henv, rfl, rfl, nofun, fun _ => ⟨?_, fun c => ?_, ?_⟩⟩
    · exact congrArg (fun r : SysRegs => { r with fgPhase := .PH_TAKE, irqEnable := true }) hsys
    · rw [expanderBooted_chip, hchip, henv]
      exact ⟨fun hack => by rw [hack]; rfl, fun hack => by rw [hack]; rfl⟩
    · rw [expanderBooted_events, hevents, henv]

end Sys2Proof.Machine
end
